-- ==== Sys2Proof/Word.lean ====
section
/-! DEFINITION. The two bit widths of the block: bytes on the bus and in the duty register, and 16-bit
command words, cursor registers and addresses (spec/10_state.md R17 to R21, spec/30_encoding.md R62). -/

namespace Sys2Proof

/-- An 8-bit quantity: a byte on the bus, a sample, an operand. -/
abbrev Byte := BitVec 8

/-- A 16-bit quantity: a command word, `POS`, `LIM`, a clip's base and length, a register of the view. -/
abbrev Word := BitVec 16

end Sys2Proof
end

