-- ==== Sys2Proof/Syntax.lean ====
section
/-! DEFINITION. The twelve commands of the command port, one constructor per row of
spec/opcode_table.json (spec/30_encoding.md R63, R64, R73). -/

namespace Sys2Proof

/-- The two values of an acknowledge bit (spec/00_scope.md R15, spec/30_encoding.md R71). -/
inductive Ack where
  | ack
  | nack
deriving DecidableEq, Repr, Inhabited

/-- A command. Every operand has exactly the values its encoding admits (R63), so every term is a
command the port can be given; a selector beyond the clip table is one of them (refused at the port, R67). -/
inductive Instr where
  | enable                      -- ENABLE, `enable()`
  | disable                     -- DISABLE, `disable()`
  | start                       -- START, `start()`
  | rstart                      -- RSTART, `repeated_start()`
  | stop                        -- STOP, `stop()`
  | send (v : Byte)             -- SEND v, `send_byte(value)`
  | read (k : Ack)              -- READ k, `read_byte(ack)`
  | openClip (n : Byte)         -- OPEN n, `open_stream(clip)`
  | close                       -- CLOSE, `close_stream()`
  | pull                        -- PULL, `pull_next_sample()`
  | select (n : Byte)           -- SELECT n, `select_clip(n)`
  | tickctl (e : Bool)          -- TICKCTL e, the start-up configuration of the timer
deriving DecidableEq, Repr

end Sys2Proof
end

