-- ==== Sys2Proof/Config.lean ====
section
/-! DEFINITION. The parameters of spec/00_scope.md R7, the values the environment draws
(spec/20_memory.md R50, R55). The parameters are no state of the block (R16, R41); they ride in State because the host
fixes the form of exec (DESIGN CHOICE, log entry 1). -/

namespace Sys2Proof

/-- A clip descriptor (spec/10_state.md R35). -/
structure Clip where
  base : Word
  len : Word
deriving DecidableEq, Repr, Inhabited

/-- Whether OPEN, CLOSE and SELECT mask the sample interrupt (`GUARD_MODE`, R7). -/
inductive GuardMode where
  | explicit
  | none
deriving DecidableEq, Repr

/-- Which of the two oracles of spec/20_memory.md R55 answers the bus. -/
inductive Oracle where
  | reference
  | unconstrained
deriving DecidableEq, Repr

/-- The durations and the bus rate of R7. They enter no rule: the model has no time (R152). -/
structure Timing where
  tTick : Nat
  tDebounce : Nat
  dlyStop : Nat
  dlyAddr : Nat
  dlyRs : Nat
  busRate : Nat
deriving DecidableEq, Repr, Inhabited

/-- The parameters of the block and of its environment (R7), well formed or not. `N_CLIPS` is the length of `clips`. -/
structure Parameters where
  clips : List Clip
  devWr : Byte
  devRd : Byte
  eepromSize : Nat
  ticksPerSample : Nat
  guardMode : GuardMode
  oracle : Oracle
  timing : Timing
deriving DecidableEq, Repr

/-- `N_CLIPS` (R7). -/
def Parameters.nClips (c : Parameters) : Nat := c.clips.length

/-- FREE VALUE (log entry 9): the acknowledge bit the unconstrained oracle draws (R55, U11). -/
opaque Config.drawnAck : Nat → Ack

/-- FREE VALUE (log entry 9): the byte the unconstrained oracle draws (R55, U12). -/
opaque Config.drawnByte : Nat → Byte

/-- FREE VALUE (log entry 6): `DATA` after a power-on, "any value, drawn once at reset" (R21, U13). -/
opaque Config.powerOnData : Nat → Byte

/-- FREE VALUE (log entry 7): the peer's pointer after a power-on, reduced below `EEPROM_SIZE` (R50, U14). -/
opaque Config.powerOnPtr : Nat → Nat

/-- FREE VALUE (log entry 3): the durations and the bus rate (R7, D18). -/
opaque Config.durations : Timing

/-- FREE VALUE (log entry 17): `HOST_SCAN`, which lines the reference host serves, and in what order, when
more than one is active in one poll (R139, D28, N14). -/
opaque Config.hostScan : List Nat → List Nat

end Sys2Proof
end

