-- ==== Sys2Proof/WellFormed.lean ====
section
/-! DEFINITION. What the parameters must satisfy (spec/00_scope.md R7, R8; D24), the configuration, which carries that
as its premise, and the configuration the model starts from. A command needs no check of its own: every term of `Instr` is
encodable (spec/30_encoding.md R63). -/

namespace Sys2Proof

/-- The ranges R7 gives the scalar parameters: the two device bytes differ, the array has 1 to 0x10000
bytes, and at least one tick goes to a sample. -/
def Parameters.scalarsOk (c : Parameters) : Bool :=
  c.devWr != c.devRd && decide (1 ≤ c.eepromSize) && decide (c.eepromSize ≤ 0x10000) &&
    decide (1 ≤ c.ticksPerSample)

/-- A clip lies inside the array (R8). -/
def Clip.inArray (size : Nat) (c : Clip) : Bool :=
  decide (c.base.toNat < size) && decide (c.base.toNat + c.len.toNat ≤ size)

/-- The byte ranges of two clips have no address in common (R8). An empty range has no address (DEDUCED, log entry
20). -/
def Clip.apart (c d : Clip) : Bool :=
  c.len == 0#16 || d.len == 0#16 || decide (c.base.toNat + c.len.toNat ≤ d.base.toNat) ||
    decide (d.base.toNat + d.len.toNat ≤ c.base.toNat)

/-- No two clips of the list overlap (R8). -/
def pairwiseApart : List Clip → Bool
  | [] => true
  | c :: rest => rest.all (Clip.apart c) && pairwiseApart rest

/-- Every clip lies inside an array of `size` bytes, and no two overlap (R8, spec/20_memory.md R44). -/
def clipsFit (size : Nat) (clips : List Clip) : Bool := clips.all (Clip.inArray size) && pairwiseApart clips

/-- The clip table is well formed (R7, R8). -/
def Parameters.tableOk (c : Parameters) : Bool :=
  decide (1 ≤ c.nClips) && decide (c.nClips ≤ 256) && clipsFit c.eepromSize c.clips

/-- The parameters are well formed (R7, R8). -/
def Parameters.wellFormed (c : Parameters) : Bool := c.scalarsOk && c.tableOk

/-- The configuration: parameters with the premise every rule of the spec assumes of them, that they are well formed (R8,
spec/20_memory.md R44). Ill-formed parameters are no configuration, so no state has them and the model gives them no
meaning (R8, D24, U17; log entry 20). -/
structure Config extends Parameters where
  wf : toParameters.wellFormed = true
deriving DecidableEq, Repr

/-- A clip table of the reference size: four clips (R7), well formed in an array of 0x8000 bytes. The defaults only show
that there is one. -/
structure ReferenceTable where
  clips : List Clip := List.replicate 4 ⟨0#16, 0#16⟩
  four : clips.length = 4 := by decide
  fit : clipsFit 0x8000 clips = true := by decide
deriving DecidableEq, Repr, Inhabited

/-- FREE VALUE (log entry 2): the reference clip table, whose bases and lengths the source does not give (R35, N3). Nothing
is known of it but that it has four clips and is well formed. -/
opaque Config.referenceTable : ReferenceTable

/-- The reference configuration: the reference and default values of R7 where there are any (D10, D13, D19),
free values for the clip table and the durations (DESIGN CHOICE, log entry 1; the device bytes PRESUMED,
log entry 18). -/
def Config.standard : Config where
  clips := Config.referenceTable.clips
  devWr := 0xA0#8
  devRd := 0xA1#8
  eepromSize := 0x8000
  ticksPerSample := 1
  guardMode := .explicit
  oracle := .reference
  timing := Config.durations
  wf := by
    simp [Parameters.wellFormed, Parameters.scalarsOk, Parameters.tableOk, Parameters.nClips,
      Config.referenceTable.four, Config.referenceTable.fit]

end Sys2Proof
end

