-- ==== Sys2Proof/Decode.lean ====
section
/-! DEFINITION. The command word: decoder, the reason a word is illegal, and the encoder
(spec/30_encoding.md R62 to R66). Every command is one 16-bit word `CW`: `op` in bits 15 to 8, `arg` in
bits 7 to 0; there is no other length and no byte order, a word is written whole to the port (R47, R68). -/

namespace Sys2Proof

/-- `op`, bits 15 to 8 (R62). -/
def opField (w : Word) : Byte := w.extractLsb' 8 8

/-- `arg`, bits 7 to 0 (R62). -/
def argField (w : Word) : Byte := w.extractLsb' 0 8

/-- The word `{op, arg}` (R62). -/
def commandWord (op arg : Byte) : Word := op ++ arg

/-- Operand `k` of READ: ACK when `arg[0] = 1` (R63). -/
def ackOfBit (b : Bool) : Ack := if b then .ack else .nack

/-- The bit that stands for an acknowledge operand (R63, R73: ACK is operand value 1). -/
def bitOfAck : Ack → Bool
  | .ack => true
  | .nack => false

/-- An operand byte whose bits 7 to 1 are 0 (R63). -/
def oneBitArg (b : Bool) : Byte := if b then 1#8 else 0#8

/-- One row of the opcode map: a word belongs to it when `w & mask = bits` (R64). -/
structure OpcodeRow where
  mask : Word
  bits : Word
  build : Word → Instr

/-- The opcode map of R64, in the table's order. -/
def opcodeMap : List OpcodeRow :=
  [ ⟨0xFFFF#16, 0x0100#16, fun _ => .enable⟩,
    ⟨0xFFFF#16, 0x0200#16, fun _ => .disable⟩,
    ⟨0xFFFF#16, 0x0300#16, fun _ => .start⟩,
    ⟨0xFFFF#16, 0x0400#16, fun _ => .rstart⟩,
    ⟨0xFFFF#16, 0x0500#16, fun _ => .stop⟩,
    ⟨0xFF00#16, 0x0600#16, fun w => .send (argField w)⟩,
    ⟨0xFFFE#16, 0x0700#16, fun w => .read (ackOfBit (w.getLsbD 0))⟩,
    ⟨0xFF00#16, 0x0800#16, fun w => .openClip (argField w)⟩,
    ⟨0xFFFF#16, 0x0900#16, fun _ => .close⟩,
    ⟨0xFFFF#16, 0x0A00#16, fun _ => .pull⟩,
    ⟨0xFF00#16, 0x0B00#16, fun w => .select (argField w)⟩,
    ⟨0xFFFE#16, 0x0C00#16, fun w => .tickctl (w.getLsbD 0)⟩ ]

/-- Why a word is illegal. The spec has one reason, `IllegalCmd` (R66); these are its four cases. -/
inductive DecodeError where
  /-- `op = 0x00`, kept illegal so that an all-zero word is no command. -/
  | zeroOp
  /-- `op` from 0x0D to 0xFF. -/
  | reservedOp
  /-- READ or TICKCTL with any of `arg[7:1]` set. -/
  | reservedArgBits
  /-- A command without operand whose `arg` is not 0. -/
  | argNotZero
deriving DecidableEq, Repr

/-- The case of R66 a word that matches no row falls under. -/
def illegalReason (w : Word) : DecodeError :=
  if opField w = 0x00#8 then .zeroOp
  else if 0x0D#8 ≤ opField w then .reservedOp
  else if opField w = 0x07#8 ∨ opField w = 0x0C#8 then .reservedArgBits
  else .argNotZero

/-- The decoder, total on 16-bit words (R64, R66). -/
def decodeWord (w : Word) : Except DecodeError Instr :=
  match opcodeMap.find? (fun r => w &&& r.mask == r.bits) with
  | some r => .ok (r.build w)
  | none => .error (illegalReason w)

/-- The word of a command (R63, R64). -/
def encode : Instr → Word
  | .enable => commandWord 0x01#8 0#8
  | .disable => commandWord 0x02#8 0#8
  | .start => commandWord 0x03#8 0#8
  | .rstart => commandWord 0x04#8 0#8
  | .stop => commandWord 0x05#8 0#8
  | .send v => commandWord 0x06#8 v
  | .read k => commandWord 0x07#8 (oneBitArg (bitOfAck k))
  | .openClip n => commandWord 0x08#8 n
  | .close => commandWord 0x09#8 0#8
  | .pull => commandWord 0x0A#8 0#8
  | .select n => commandWord 0x0B#8 n
  | .tickctl e => commandWord 0x0C#8 (oneBitArg e)

/-- What the decoder reads from an instruction of the opcode table whose bits are `w`. Every row has one
16-bit word, so a shorter `nbits` leaves the upper bits 0. -/
def decodeTableWord (nbits w : Nat) : Option Instr :=
  if nbits ≤ 16 ∧ w < 2 ^ 16 then
    match decodeWord (BitVec.ofNat 16 w) with
    | .ok i => some i
    | .error _ => none
  else none

end Sys2Proof
end

