-- ==== Sys2Proof/Machine/State.lean ====
section
/-! DEFINITION. The state of the block (spec/10_state.md R16), of its observation (spec/00_scope.md R11), of
the reference peer (spec/20_memory.md R50) and of the environment's choices (R41), the ways a step can stop,
and the state after power-on (R42). -/

namespace Sys2Proof.Machine

/-- `SESS`, the state of the bus between a start and its stop (R37). -/
inductive Sess where
  /-- No session; bus idle. -/
  | s0
  /-- A start or repeated start has been sent; a device address byte is due. -/
  | s1
  /-- The peer is addressed for write. -/
  | sw
  /-- The peer is addressed for read and is streaming. -/
  | sr
  /-- The master has sent a no-acknowledge; the peer has stopped streaming. -/
  | sn
deriving DecidableEq, Repr

/-- A primitive of the bus engine with its operand (R38, spec/40_bus_engine.md R76). -/
inductive Prim where
  | start
  | rstart
  | stop
  | send (b : Byte)
  | read (k : Ack)
deriving DecidableEq, Repr

/-- What a `ProtocolFault` names beside the session: a primitive, or DISABLE (spec/60_exceptions.md R115). -/
inductive Misuse where
  | prim (p : Prim)
  | disable
deriving DecidableEq, Repr

/-- An event of the trace (spec/00_scope.md R11): `S`, `Sr`, `P`, `TX(b, a)`, `RX(b, k)`, `DUTY(v)`. -/
inductive Event where
  | start
  | rstart
  | stop
  | tx (b : Byte) (a : Ack)
  | rx (b : Byte) (k : Ack)
  | duty (v : Byte)
deriving DecidableEq, Repr

/-- `FG`, the foreground sequencer position (R22). -/
inductive Position where
  | idle
  | run (word : Word) (i : Nat)
deriving DecidableEq, Repr

/-- What the host receives: the byte a READ returns (R61, R88), or the value of a register it reads (R33). -/
inductive Reply where
  | byte (b : Byte)
  | reg (n : Fin 8) (v : Word)
deriving DecidableEq, Repr

/-- A move of the host (spec/60_exceptions.md R138, R139). -/
inductive HostOp where
  /-- Write a word to register `n` of the view; to `R[0]` it is the issue of a command (R33, R61). -/
  | write (n : Fin 8) (w : Word)
  /-- Read register `n` of the view (R33). -/
  | read (n : Fin 8)
  /-- One poll of the reference host: bit k is the level of line k, 0 meaning pressed (R139). -/
  | poll (lines : BitVec 3)
deriving DecidableEq, Repr

/-- Whose move comes next (spec/00_scope.md R13, spec/20_memory.md R56). -/
inductive Turn where
  | host (op : HostOp)
  /-- The sample clock fires (R126). -/
  | clock
  /-- The environment sets `Responsive` (R54). -/
  | bus (responsive : Bool)
  /-- The bus engine completes the primitive in flight (R78). -/
  | engine
  /-- The sequencer takes its next micro-step (R23, R127). -/
  | sequencer
  /-- Power is lost and returns (R137, R141). -/
  | powerOn
deriving DecidableEq, Repr

/-- The peer's byte array as a sparse list of cells (R43). -/
abbrev Memory := List Host.Cell

/-- Why the machine stops with a fault. -/
inductive Fault where
  /-- FT1 `ProtocolFault(SESS, P)` (R115, R123): raised by the issue of a primitive the session grammar does not
  admit and by DISABLE inside a session. The raise records it in `FAULT`; every later step answers it. SAFE: the
  source gives the situation no meaning. -/
  | protocolFault (sess : Sess) (op : Misuse)
  /-- FT2 `FramingFault(P)` (R115, R124): raised by the issue of a primitive while another is in flight. Recorded and
  answered as the other. SAFE. -/
  | framingFault (p : Prim)
  /-- Raised by the sequencer at a position that is no micro-step of its micro-program, at a running word that is no
  command, or at a running selector beyond the table. No run reaches one (R22, R61, R67; DESIGN CHOICE, log entry 15).
  SAFE. -/
  | badPosition
  /-- Raised by the bus engine when `BUSY = 1` with nothing in flight. No run reaches it (R38, R80; DESIGN CHOICE, log
  entry 15). SAFE. -/
  | noInflight
deriving DecidableEq, Repr

/-- Why the model gives a step no meaning. -/
inductive Refusal where
  /-- Answered by an arm of exec whose command has no meaning yet; no arm does. SAFE. -/
  | notModelled (mnemonic : String)
  /-- RF6 `UnmodelledPeerWrite` (R53, R114): answered by the completion of a SEND that would be the third or later
  byte of a write phase, with the reference peer. The run is outside the model (log entry 12). SAFE. -/
  | unmodelledPeerWrite
deriving DecidableEq, Repr

/-- The whole state. The first block is R16's table row by row; then the observation, the reference peer, and
what the environment chooses (R41), which the block cannot read. -/
structure State where
  /-- `POS`, samples already consumed in the current stream (R17). -/
  pos : Word
  /-- `LIM`, the active clip's length (R18). -/
  lim : Word
  /-- `DUTY`, the PWM duty register (R20). -/
  duty : Byte
  /-- `DATA`, the receive buffer (R21). -/
  data : Byte
  /-- `EN`, the bus engine is configured (R25). -/
  en : Bool
  /-- `BUSY`, a primitive is in flight (R24). -/
  busy : Bool
  /-- `OPENF`, a stream has been opened since start-up (R26). -/
  openf : Bool
  /-- `TICK_EN`, the sample clock is an interrupt source (R28). -/
  tickEn : Bool
  /-- `TICK_PEND`, a tick is latched (R29). -/
  tickPend : Bool
  /-- `IN_ISR`, the tick handler is running (R30). -/
  inIsr : Bool
  /-- `GUARD`, the interrupt mask of OPEN, CLOSE and SELECT (R31). -/
  guard : Bool
  /-- `DIV`, ticks since the last sample was due (R32). -/
  div : Nat
  /-- `FG` (R22). -/
  fg : Position
  /-- `ISRPC`, the next micro-step of the handler while `IN_ISR = 1` (R22). -/
  isrpc : Nat
  /-- `INFLIGHT`, the primitive the bus engine is performing (R38). -/
  inflight : Option Prim
  /-- `SESS` (R37). -/
  sess : Sess
  /-- `FAULT`, the raise that has happened (R40). -/
  fault : Option Fault
  /-- The trace since reset, oldest first (R11). An observation: no rule reads it (DESIGN CHOICE, log entry 16). -/
  trace : List Event
  /-- What the host has received since reset, oldest first (R33, R61). An observation: no rule reads it (DESIGN CHOICE,
  log entry 16). -/
  replies : List Reply
  /-- The peer's array `EEPROM` (R50). -/
  eeprom : Memory
  /-- The peer's pointer `PTR` (R50). -/
  ptr : Nat
  /-- The peer's count `WCNT` of address bytes in the write phase (R50). -/
  wcnt : Nat
  /-- The peer's latch `AH` of the first address byte (R50). -/
  ah : Byte
  /-- The environment's `Responsive` (R54). -/
  responsive : Bool
  /-- The model's own: how many free values have been drawn (DESIGN CHOICE, log entry 9). -/
  draws : Nat
  /-- The model's own: the environment's coming moves, next first (DESIGN CHOICE, log entry 4). -/
  script : List Turn
  /-- The configuration (R7), well formed by its own premise (R8); no step changes it. -/
  cfg : Config
deriving DecidableEq, Repr

/-- The state right after the `n`-th draw's power-on, for a configuration, a provisioned array and an
environment (R42, R141). `DATA` and `PTR` are free values; `ISRPC`, `WCNT` and `AH`, to which the spec gives no reset
value, are 0 (DESIGN CHOICE, log entry 13). -/
def State.atPowerOn (cfg : Config) (eeprom : Memory) (responsive : Bool) (n : Nat)
    (script : List Turn) : State where
  pos := 0#16
  lim := 0#16
  duty := 0#8
  data := Config.powerOnData n
  en := false
  busy := false
  openf := false
  tickEn := false
  tickPend := false
  inIsr := false
  guard := false
  div := 0
  fg := .idle
  isrpc := 0
  inflight := none
  sess := .s0
  fault := none
  trace := []
  replies := []
  eeprom := eeprom
  ptr := Config.powerOnPtr n % cfg.eepromSize
  wcnt := 0
  ah := 0#8
  responsive := responsive
  draws := n + 1
  script := script
  cfg := cfg

/-- The machine right after reset (R42): the reference configuration, no byte of the array listed, a responsive
bus, and an environment that has no move to make (DESIGN CHOICE, log entries 1, 8 and 23). -/
def State.reset : State := State.atPowerOn Config.standard [] true 0 []

end Sys2Proof.Machine
end

