-- ==== Sys2Proof/Machine/Ops.lean ====
section
/-! DEFINITION. The named operations the meanings are made of: the peer's array, the trace, raising a fault,
the session grammar, issue and await, the guard, the sample interrupt (firing, taking and returning from it), and
running one micro-step of a micro-program. -/

namespace Sys2Proof.Machine

/-! ### The peer's array (spec/20_memory.md R43, R50) -/

/-- What an unlisted byte of the array reads as: the erased value 0xFF (DESIGN CHOICE, log entry 8). -/
def Memory.unlisted : Byte := 0xFF#8

/-- One byte of the array. -/
def Memory.read : Memory → Nat → Byte
  | [], _ => Memory.unlisted
  | (k, b) :: rest, a => if k = a then b else Memory.read rest a

/-- Provision one byte, keeping the canonical form. No rule of the block writes the array (R5 (e), R10); this is
the external provisioning of R44. -/
def Memory.write : Memory → Nat → Byte → Memory
  | [], a, b => if b = Memory.unlisted then [] else [(a, b)]
  | (k, c) :: rest, a, b =>
    if a < k then (if b = Memory.unlisted then (k, c) :: rest else (a, b) :: (k, c) :: rest)
    else if a = k then (if b = Memory.unlisted then rest else (a, b) :: rest)
    else (k, c) :: Memory.write rest a b

/-- Provision a list of bytes from address `a` upward (R44). -/
def Memory.provision (m : Memory) (a : Nat) : List Byte → Memory
  | [] => m
  | b :: rest => Memory.provision (Memory.write m a b) (a + 1) rest

/-- The canonical form: addresses strictly rising, no entry equal to what an unlisted address reads as. -/
def Memory.wf : Memory → Bool
  | [] => true
  | (k, b) :: rest => b != Memory.unlisted && rest.all (fun c => decide (k < c.1)) && Memory.wf rest

/-- Every listed address is one of the array's `size` bytes (R43). -/
def Memory.below (size : Nat) (m : Memory) : Bool := m.all (fun c => decide (c.1 < size))

/-- `MemRead(addr, 1) = EEPROM[addr mod EEPROM_SIZE]` (R10). -/
def memRead (s : State) (addr : Nat) : Byte := Memory.read s.eeprom (addr % s.cfg.eepromSize)

/-! ### Observation and faults -/

/-- `emit e` (R10, R11). -/
def emit (e : Event) (s : State) : State := { s with trace := s.trace ++ [e] }

/-- `DUTY <- v ; emit DUTY(v)`: every write of the duty register is on the trace (R20). -/
def writeDuty (v : Byte) (s : State) : State := emit (.duty v) { s with duty := v }

/-- `raise F` (R10, R115): the fault is recorded and nothing else changes. From then on no agent steps; that is
the step's to say (DESIGN CHOICE of form, log entry 10). -/
def raise (f : Fault) (s : State) : State := { s with fault := some f }

/-! ### The session grammar (spec/40_bus_engine.md R79) -/

/-- The table of R79: the session that follows primitive `p` in a session, none where the cell is empty. -/
def nextSess (cfg : Config) : Sess → Prim → Option Sess
  | .s0, .start => some .s1
  | .s1, .send b => if b = cfg.devWr then some .sw else if b = cfg.devRd then some .sr else none
  | .sw, .rstart => some .s1
  | .sw, .send _ => some .sw
  | .sr, .read .ack => some .sr
  | .sr, .read .nack => some .sn
  | .sn, .stop => some .s0
  | _, _ => none

/-- `Admits(SESS, P)` (R79). -/
def admits (s : State) (p : Prim) : Bool := (nextSess s.cfg s.sess p).isSome

/-! ### Micro-steps (spec/10_state.md R22, R23) -/

/-- Where a micro-step leaves its context's position (R23). -/
inductive Flow where
  /-- On to the next micro-step, or out of the command after the last. -/
  | advance
  /-- The position stays: a wait, a raised fault, or the end of the handler. -/
  | stay
  /-- `skip to k`. -/
  | skipTo (k : Nat)
  /-- The micro-step has no meaning for this command; unreachable. -/
  | broken
deriving DecidableEq, Repr

/-- One micro-step of a micro-program. -/
abbrev Micro := State → State × Flow

/-- The outcome of one step. -/
abbrev Result := Host.Outcome State Fault Refusal

/-- `issue P(arg)` (R76): framing before protocol, then hand the primitive to the bus engine. -/
def issue (p : Prim) : Micro := fun s =>
  if s.busy then (raise (.framingFault p) s, .stay)
  else if admits s p then ({ s with inflight := some p, busy := true }, .advance)
  else (raise (.protocolFault s.sess (.prim p)) s, .stay)

/-- `await` (R77): the spin on the busy bit. -/
def await : Micro := fun s => (s, if s.busy then .stay else .advance)

/-- The three settling delays (spec/41_stream_controller.md R94). -/
inductive Delay where
  | stop
  | addr
  | rs
deriving DecidableEq, Repr

/-- `delay D` (R94): a micro-step without effect, since the model has no time (R147, R152; DEDUCED,
log entry 21). -/
def delay (_ : Delay) : Micro := fun s => (s, .advance)

/-- `guard_on` (R92). -/
def guardOn : Micro := fun s =>
  ({ s with guard := if s.cfg.guardMode = .explicit then true else s.guard }, .advance)

/-- `guard_off` (R92). -/
def guardOff : Micro := fun s => ({ s with guard := false }, .advance)

/-- A micro-step that only writes registers. -/
def assign (f : State → State) : Micro := fun s => (f s, .advance)

/-- `if c then skip to k` (R23). -/
def skipIf (c : State → Bool) (k : Nat) : Micro := fun s => (s, if c s then .skipTo k else .advance)

/-- A micro-step followed by `skip to k`. -/
def assignThenSkip (f : State → State) (k : Nat) : Micro := fun s => (f s, .skipTo k)

/-- Micro-step `k` of the foreground's micro-program `prog`, running word `w` (R22, R23). -/
def foregroundStep (prog : List Micro) (w : Word) (k : Nat) (s : State) : Result :=
  match prog[k]? with
  | none => .fault .badPosition
  | some m =>
    match m s with
    | (t, .advance) => .next { t with fg := if k + 1 < prog.length then .run w (k + 1) else .idle }
    | (t, .stay) => .next t
    | (t, .skipTo j) => .next { t with fg := .run w j }
    | (_, .broken) => .fault .badPosition

/-- One micro-step in the interrupt context (R22, R23). -/
def interruptStep (m : Option Micro) (s : State) : Result :=
  match m with
  | none => .fault .badPosition
  | some m =>
    match m s with
    | (t, .advance) => .next { t with isrpc := s.isrpc + 1 }
    | (t, .stay) => .next t
    | (t, .skipTo j) => .next { t with isrpc := j }
    | (_, .broken) => .fault .badPosition

/-! ### The sample interrupt (spec/60_exceptions.md R126 to R130) -/

/-- The sample clock fires (R126): latched unless disabled or inside the handler; a tick already pending absorbs it. -/
def fireTick (s : State) : State := if s.tickEn && !s.inIsr then { s with tickPend := true } else s

/-- Entry of the handler is enabled (R127). -/
def entryEnabled (s : State) : Bool := s.tickPend && !s.inIsr && !s.guard

/-- TAKING THE INTERRUPT (R127): nothing is saved, `FG` keeps its value. -/
def enterHandler (s : State) : State := { s with inIsr := true, tickPend := false, isrpc := 0 }

/-- RETURNING FROM IT (R129): the handler's last micro-step; nothing is restored. -/
def exitHandler : Micro := fun s => ({ s with inIsr := false }, .stay)

/-! ### Power (spec/60_exceptions.md R137, spec/70_reset_and_hazards.md R141) -/

/-- Power is lost and returns: every piece of state starts from its reset value; the array stays as provisioned, and
the environment goes on with its moves (DESIGN CHOICE, log entry 23). -/
def powerCycle (rest : List Turn) (s : State) : State :=
  State.atPowerOn s.cfg s.eeprom s.responsive s.draws rest

end Sys2Proof.Machine
end

