-- ==== Sys2Proof/Machine/Operands.lean ====
section
/-! DEFINITION. Operand forms: the clip selector and what the clip table gives for it (spec/10_state.md R35), the
two address bytes (spec/20_memory.md R45) and the peer's address (R51). -/

namespace Sys2Proof.Machine

/-- The selector's entry of the clip table, none beyond it (R35). -/
def clipAt (cfg : Config) (n : Byte) : Option Clip := cfg.clips[n.toNat]?

/-- `hi = CLIP[n].base[15:8]` (R45). -/
def hiByte (w : Word) : Byte := w.extractLsb' 8 8

/-- `lo = CLIP[n].base[7:0]` (R45). -/
def loByte (w : Word) : Byte := w.extractLsb' 0 8

/-- `{AH, b} mod EEPROM_SIZE`, the address the peer loads (R51; the reduction PRESUMED, log entry 18). -/
def peerAddress (cfg : Config) (hi lo : Byte) : Nat := (hi ++ lo : Word).toNat % cfg.eepromSize

/-- A micro-step that uses the entry of the clip table for `n`; the selector has been checked at the port (R67). -/
def withClip (n : Byte) (f : Clip → Micro) : Micro := fun s =>
  match clipAt s.cfg n with
  | some c => f c s
  | none => (s, .broken)

end Sys2Proof.Machine
end

