-- ==== Sys2Proof/Machine/Completion.lean ====
section
/-! DEFINITION. The completion step of the bus engine (spec/40_bus_engine.md R78) and the two oracles that answer it
(spec/20_memory.md R50 to R55). -/

namespace Sys2Proof.Machine

/-- The completion step is enabled (R54, R78). -/
def completionEnabled (s : State) : Bool := s.busy && s.responsive

/-- The end of a completion: the session moves on and the engine is free (R78). -/
def settle (n : Sess) (s : State) : State := { s with sess := n, inflight := none, busy := false }

/-- The reference peer sees a start or repeated start: a new write phase has no address byte yet (R51). -/
def peerSeesStart (s : State) : State :=
  match s.cfg.oracle with
  | .reference => { s with wcnt := 0 }
  | .unconstrained => s

/-- The end of SEND(b), answered with `a` (R78). The acknowledge goes to the trace and nowhere else (R81). -/
def sent (b : Byte) (a : Ack) (n : Sess) (s : State) : State := settle n (emit (.tx b a) s)

/-- The reference peer's reaction to SEND(b) (R51, R53). -/
def peerTakes (b : Byte) (n : Sess) (s : State) : Result :=
  if s.sess = .sw then
    match s.wcnt with
    | 0 => .next (sent b .ack n { s with ah := b, wcnt := 1 })
    | 1 => .next (sent b .ack n { s with ptr := peerAddress s.cfg s.ah b, wcnt := 2 })
    | _ => .refused .unmodelledPeerWrite
  else .next (sent b .ack n s)

/-- Completion of SEND(b) (R78, R87). What is in flight was admitted at its issue; a state in which it is not raises the
fault of the issue (DESIGN CHOICE, log entry 22). -/
def completeSend (b : Byte) (s : State) : Result :=
  match nextSess s.cfg s.sess (.send b) with
  | none => .next (raise (.protocolFault s.sess (.prim (.send b))) s)
  | some n =>
    match s.cfg.oracle with
    | .reference => peerTakes b n s
    | .unconstrained => .next (sent b (Config.drawnAck s.draws) n { s with draws := s.draws + 1 })

/-- The end of READ(k), with received byte `b` (R78). -/
def received (b : Byte) (k : Ack) (n : Sess) (s : State) : State :=
  settle n (emit (.rx b k) { s with data := b })

/-- Completion of READ(k) (R52, R78, R88); as for SEND where it is not admitted (DESIGN CHOICE, log entry 22). That the
pointer wraps, and advances after NACK too, is PRESUMED (log entry 18). -/
def completeRead (k : Ack) (s : State) : Result :=
  match nextSess s.cfg s.sess (.read k) with
  | none => .next (raise (.protocolFault s.sess (.prim (.read k))) s)
  | some n =>
    match s.cfg.oracle with
    | .reference =>
      .next (received (memRead s s.ptr) k n { s with ptr := (s.ptr + 1) % s.cfg.eepromSize })
    | .unconstrained =>
      .next (received (Config.drawnByte s.draws) k n { s with draws := s.draws + 1 })

/-- The completion step (R78). -/
def complete (s : State) : Result :=
  match s.inflight with
  | none => .fault .noInflight
  | some .start => .next (settle .s1 (emit .start (peerSeesStart s)))
  | some .rstart => .next (settle .s1 (emit .rstart (peerSeesStart s)))
  | some .stop => .next (settle .s0 (emit .stop s))
  | some (.send b) => completeSend b s
  | some (.read k) => completeRead k s

end Sys2Proof.Machine
end

