-- ==== Sys2Proof/Machine/Flags.lean ====
section
/-! DEFINITION. The derived predicates over the state and the register view (spec/10_state.md R27, R33, R34;
spec/30_encoding.md R61). -/

namespace Sys2Proof.Machine

/-- `EXH`: the stream is exhausted, `POS = LIM` (R27). -/
def exhausted (s : State) : Bool := s.pos == s.lim

/-- The handler's test `POS < LIM`, unsigned (R27, R90). -/
def samplesLeft (s : State) : Bool := decide (s.pos < s.lim)

/-- The command port is free (R61). -/
def portFree (s : State) : Bool := s.fg == .idle && !s.inIsr

/-- `STATUS` (R34): bit 0 `BUSY`, 1 `EN`, 2 `OPENF`, 3 `EXH`, 4 `TICK_EN`, 5 `TICK_PEND`, 6 `IN_ISR`, 7 `GUARD`. -/
def statusWord (s : State) : Word :=
  0#8 ++ (BitVec.ofBool s.guard ++ BitVec.ofBool s.inIsr ++ BitVec.ofBool s.tickPend ++ BitVec.ofBool s.tickEn ++
    BitVec.ofBool (exhausted s) ++ BitVec.ofBool s.openf ++ BitVec.ofBool s.en ++ BitVec.ofBool s.busy)

/-- Register `n` of the view as the host reads it (R33). `DIV` is shown in 16 bits (DESIGN CHOICE, log entry 19). -/
def regRead (s : State) (n : Fin 8) : Word :=
  match n.val with
  | 1 => statusWord s
  | 2 => s.data.setWidth 16
  | 3 => s.pos
  | 4 => s.lim
  | 5 => s.duty.setWidth 16
  | 6 => BitVec.ofNat 16 s.div
  | _ => 0#16

end Sys2Proof.Machine
end

