-- ==== Sys2Proof/Machine/Port.lean ====
section
/-! DEFINITION. The command port: the checks of spec/30_encoding.md R67, acceptance, and one step of a command
(R61; spec/60_exceptions.md R114). -/

namespace Sys2Proof.Machine

/-- The reasons RF2 to RF5 the block refuses a legal command for (R114); RF1 `IllegalCmd` is the decoder's, RF6 the
peer's. They are labels: nothing records them. -/
inductive PortRefusal where
  | wrongContext
  | notEnabled
  | selRange
  | notOpen
deriving DecidableEq, Repr

/-- The commands exempt from the `EN` check (R67). -/
def needsEngine : Instr → Bool
  | .enable => false
  | .disable => false
  | .tickctl _ => false
  | _ => true

/-- The clip selector of a command that has one (R63). -/
def selector : Instr → Option Byte
  | .openClip n => some n
  | .select n => some n
  | _ => none

/-- The selector, if any, is inside the table (R67 check 4). -/
def selectorInTable (cfg : Config) (i : Instr) : Bool :=
  match selector i with
  | some n => decide (n.toNat < cfg.nClips)
  | none => true

/-- Checks 2 to 5 of R67, in order; none when the command is accepted. -/
def portCheck (i : Instr) (s : State) : Option PortRefusal :=
  if i = .pull then some .wrongContext
  else if needsEngine i && !s.en then some .notEnabled
  else if !selectorInTable s.cfg i then some .selRange
  else if i = .close ∧ s.openf = false then some .notOpen
  else none

/-- A command at the free port: accepted, or dropped without a trace (R61, R114; DESIGN CHOICE of form, log entry
11). -/
def accept (i : Instr) (s : State) : State :=
  match portCheck i s with
  | some _ => s
  | none => { s with fg := .run (encode i) 0 }

/-- One step of a command with micro-program `prog`: at the port its acceptance, in the foreground its next
micro-step; while the handler runs the foreground does not step (R30, R61; DESIGN CHOICE of form, log entry
25). -/
def command (i : Instr) (prog : List Micro) (s : State) : Result :=
  if s.inIsr then .next s
  else
    match s.fg with
    | .idle => .next (accept i s)
    | .run w k => foregroundStep prog w k s

end Sys2Proof.Machine
end

