-- ==== Sys2Proof/Machine/BusEngine.lean ====
section
/-! DEFINITION. ENABLE, DISABLE and the five primitive commands (spec/40_bus_engine.md R82 to R88). -/

namespace Sys2Proof.Machine

/-- The micro-program of ENABLE (R82). -/
def enableProgram : List Micro := [assign fun s => { s with en := true }]

/-- ENABLE (R82). -/
def execEnable (s : State) : Result := command .enable enableProgram s

/-- DISABLE's one micro-step (R83). -/
def deconfigure : Micro := fun s =>
  if s.sess = .s0 then ({ s with en := false }, .advance)
  else (raise (.protocolFault s.sess .disable) s, .stay)

/-- DISABLE (R83). -/
def execDisable (s : State) : Result := command .disable [deconfigure] s

/-- The micro-program of START, RSTART, STOP and SEND: one primitive, issued and awaited (R84 to R87). -/
def primitiveProgram (p : Prim) : List Micro := [issue p, await]

/-- START (R84). -/
def execStart (s : State) : Result := command .start (primitiveProgram .start) s

/-- RSTART (R85). -/
def execRstart (s : State) : Result := command .rstart (primitiveProgram .rstart) s

/-- STOP (R86). -/
def execStop (s : State) : Result := command .stop (primitiveProgram .stop) s

/-- SEND v (R87). -/
def execSend (v : Byte) (s : State) : Result := command (.send v) (primitiveProgram (.send v)) s

/-- `return DATA`: the host receives the byte that stands in `DATA` now (R88). -/
def returnData : Micro := assign fun s => { s with replies := s.replies ++ [.byte s.data] }

/-- The micro-program of READ k (R88). -/
def readProgram (k : Ack) : List Micro := [issue (.read k), await, returnData]

/-- READ k (R88). -/
def execRead (k : Ack) (s : State) : Result := command (.read k) (readProgram k) s

end Sys2Proof.Machine
end

