-- ==== Sys2Proof/Machine/StreamController.lean ====
section
/-! DEFINITION. OPEN, CLOSE and PULL (spec/41_stream_controller.md R92 to R98). -/

namespace Sys2Proof.Machine

/-- `OPENBODY(n)`, steps 1 to 17 of OPEN (R93): the addressed read, then `LIM` before `POS`. -/
def openBody (n : Byte) : List Micro :=
  [ issue .start, await,
    fun s => issue (.send s.cfg.devWr) s, await,
    withClip n fun c => issue (.send (hiByte c.base)), await,
    withClip n fun c => issue (.send (loByte c.base)), await,
    delay .addr,
    issue .rstart, await,
    delay .rs,
    fun s => issue (.send s.cfg.devRd) s, await,
    withClip n fun c => assign fun s => { s with lim := c.len },
    assign fun s => { s with pos := 0#16 },
    assign fun s => { s with div := 0 } ]

/-- The micro-program of OPEN n (R93). -/
def openProgram (n : Byte) : List Micro := [guardOn] ++ openBody n ++ [guardOff]

/-- OPEN n (R93). -/
def execOpenClip (n : Byte) (s : State) : Result := command (.openClip n) (openProgram n) s

/-- `CLOSEBODY`, steps 1 to 5 of CLOSE (R96): the drain byte is rendered, then the stop. -/
def closeBody : List Micro :=
  [ issue (.read .nack), await, assign fun s => writeDuty s.data s, issue .stop, await ]

/-- The micro-program of CLOSE (R96). -/
def closeProgram : List Micro := [guardOn] ++ closeBody ++ [guardOff]

/-- CLOSE (R96). -/
def execClose (s : State) : Result := command .close closeProgram s

/-- `pull_next_sample`, steps 1 to 4 of the handler (R98, R107). -/
def pullBody : List Micro :=
  [ skipIf (fun s => !samplesLeft s) 7, issue (.read .ack), await,
    assign fun s => { s with pos := s.pos + 1#16 } ]

/-- PULL (R98): in the interrupt context, where alone it runs, the handler's micro-steps 1 to 4; at the port it is
always dropped, `WrongContext` (R119). -/
def execPull (s : State) : Result :=
  if s.inIsr then
    match s.isrpc with
    | 0 => .fault .badPosition
    | k + 1 => interruptStep pullBody[k]? s
  else command .pull [] s

end Sys2Proof.Machine
end

