-- ==== Sys2Proof/Machine/PlaybackSelect.lean ====
section
/-! DEFINITION. SELECT (spec/42_playback_select.md R99 to R105). -/

namespace Sys2Proof.Machine

/-- The micro-program of SELECT n (R101): under one guard, close the open stream if there is one, open the new one,
set `OPENF`. -/
def selectProgram (n : Byte) : List Micro :=
  [guardOn, skipIf (fun s => !s.openf) 8] ++ closeBody ++ [delay .stop] ++ openBody n ++
    [assign fun s => { s with openf := true }, guardOff]

/-- SELECT n (R101). -/
def execSelect (n : Byte) (s : State) : Result := command (.select n) (selectProgram n) s

end Sys2Proof.Machine
end

