-- ==== Sys2Proof/Machine/SampleClock.lean ====
section
/-! DEFINITION. TICKCTL and the tick handler (spec/43_sample_clock_pwm.md R106 to R111). -/

namespace Sys2Proof.Machine

/-- The micro-program of TICKCTL e (R111). -/
def tickctlProgram (e : Bool) : List Micro := [assign fun s => { s with tickEn := e }]

/-- TICKCTL e (R111). -/
def execTickctl (e : Bool) (s : State) : Result := command (.tickctl e) (tickctlProgram e) s

/-- `DIV <- (DIV + 1) mod TICKS_PER_SAMPLE` (R32, R107 step 8). -/
def countTick (s : State) : State := { s with div := (s.div + 1) % s.cfg.ticksPerSample }

/-- The handler's micro-program (R107): the divider, the pull, and one write of `DUTY` per run. -/
def handlerProgram : List Micro :=
  [skipIf (fun s => s.div != 0) 6] ++ pullBody ++
    [ assignThenSkip (fun s => writeDuty s.data s) 8,
      assignThenSkip (fun s => writeDuty s.duty s) 8,
      assign (writeDuty 0#8),
      assign countTick,
      exitHandler ]

/-- The handler's next micro-step (R107). -/
def handlerStep (s : State) : Result := interruptStep handlerProgram[s.isrpc]? s

end Sys2Proof.Machine
end

