-- ==== Sys2Proof/Machine/Dispatch.lean ====
section
/-! DEFINITION. exec: one step of a command in the context in which the state stands, one arm per command
(log entry 25). -/

namespace Sys2Proof.Machine

def exec (i : Instr) (s : State) : Host.Outcome State Fault Refusal :=
  match i with
  | .enable => Sys2Proof.Machine.execEnable s
  | .disable => Sys2Proof.Machine.execDisable s
  | .start => Sys2Proof.Machine.execStart s
  | .rstart => Sys2Proof.Machine.execRstart s
  | .stop => Sys2Proof.Machine.execStop s
  | .send v => Sys2Proof.Machine.execSend v s
  | .read k => Sys2Proof.Machine.execRead k s
  | .openClip n => Sys2Proof.Machine.execOpenClip n s
  | .close => Sys2Proof.Machine.execClose s
  | .pull => Sys2Proof.Machine.execPull s
  | .select n => Sys2Proof.Machine.execSelect n s
  | .tickctl e => Sys2Proof.Machine.execTickctl e s

end Sys2Proof.Machine
end

