-- ==== Sys2Proof/Machine/Agents.lean ====
section
/-! DEFINITION. The agents' moves and whose move is next (spec/00_scope.md R13; spec/60_exceptions.md R126 to R140):
the host at its port, the sequencer, the bus engine, the sample clock, and the environment's script. -/

namespace Sys2Proof.Machine

/-- The sequencer's move (R127, R128): the handler's micro-step; else taking a pending tick; else the next micro-step
of the command in progress; else none. -/
def sequencerMove (s : State) : Result :=
  if s.inIsr then handlerStep s
  else if entryEnabled s then .next (enterHandler s)
  else
    match s.fg with
    | .idle => .next s
    | .run w _ =>
      match decodeWord w with
      | .ok i => exec i s
      | .error _ => .fault .badPosition

/-- The bus engine's move (R78); none while it is not enabled. -/
def engineMove (s : State) : Result := if completionEnabled s then complete s else .next s

/-- What the block does when the environment makes no move (DESIGN CHOICE, log entry 4): the engine completes, else the sequencer
goes on; with neither enabled nothing changes (DESIGN CHOICE, log entry 14). -/
def blockMove (s : State) : Result := if completionEnabled s then complete s else sequencerMove s

/-- A word written to the command port (R61, R66): decoded, and dropped if illegal. -/
def writeCommand (w : Word) (s : State) : Result :=
  match decodeWord w with
  | .ok i => exec i s
  | .error _ => .next s

/-- The lines that read 0, lowest first (R139). -/
def activeLines (lines : BitVec 3) : List Nat := [0, 1, 2].filter fun k => !lines.getLsbD k

/-- The lines one poll serves (R139): the one active line; of several, those `HOST_SCAN` picks (D28; log
entry 17). -/
def servedLines (lines : BitVec 3) : List Nat :=
  match activeLines lines with
  | [] => []
  | [k] => [k]
  | many => (Config.hostScan many).filter fun k => decide (k ∈ many)

/-- The commands one poll of the reference host issues: SELECT k for each served line k (R139, R140). That one poll may
serve several lines, and reads all three at the same moment, is the model's choice (DESIGN CHOICE, log entries 17
and 26). -/
def pollCommands (lines : BitVec 3) : List Turn :=
  (servedLines lines).map fun k => .host (.write 0 (encode (.select (BitVec.ofNat 8 k))))

/-- The host can make its move: it runs only while the port is free (R61, R138), and a pending tick is taken before a
new command (R128). A read of a register waits for the port only (DEDUCED, log entry 24). -/
def hostReady (op : HostOp) (s : State) : Bool :=
  match op with
  | .write _ _ => portFree s && !entryEnabled s
  | .read _ => portFree s
  | .poll _ => portFree s

/-- The host's move (R33, R138, R139). A write to any register but the port is ignored. A poll samples the three lines at
once and puts all its SELECTs ahead of every remaining turn, so between the SELECTs of one poll no tick fires and the bus does
not change (the source leaves this open, N14, D28; DESIGN CHOICE, log entry 26). -/
def hostMove (op : HostOp) (s : State) : Result :=
  match op with
  | .write n w => if n = 0 then writeCommand w s else .next s
  | .read n => .next { s with replies := s.replies ++ [.reg n (regRead s n)] }
  | .poll lines => .next { s with script := pollCommands lines ++ s.script }

/-- The next turn of the script. The host waits for its port; every other agent that is not enabled lets its turn
pass (DESIGN CHOICE, log entry 4). -/
def scriptMove (s : State) : Result :=
  match s.script with
  | [] => blockMove s
  | .host op :: rest => if hostReady op s then hostMove op { s with script := rest } else blockMove s
  | .clock :: rest => .next (fireTick { s with script := rest })
  | .bus r :: rest => .next { s with responsive := r, script := rest }
  | .engine :: rest => engineMove { s with script := rest }
  | .sequencer :: rest => sequencerMove { s with script := rest }
  | .powerOn :: rest => .next (powerCycle rest s)

/-- One step of the whole: after a raise no agent steps again, and only power-on clears it (R115). -/
def agentStep (s : State) : Result :=
  match s.fault, s.script with
  | none, _ => scriptMove s
  | some _, .powerOn :: rest => .next (powerCycle rest s)
  | some f, _ => .fault f

/-- The boot sequence of the host, ENABLE then TICKCTL ON (spec/70_reset_and_hazards.md R143). -/
def bootCommands : List Turn :=
  [.host (.write 0 (encode .enable)), .host (.write 0 (encode (.tickctl true)))]

/-- A free port with `w` as the host's next move (DESIGN CHOICE, log entry 5). -/
def offerWord (w : Word) (s : State) : State :=
  { s with
    script := .host (.write 0 w) :: s.script
    fg := .idle
    inIsr := false
    tickPend := false
    fault := none }

end Sys2Proof.Machine
end

