-- ==== Sys2Proof/Machine/Step.lean ====
section
/-! DEFINITION. One step of the machine, and how a command word comes to be its next. -/

namespace Sys2Proof.Machine

/-- One step: the move of one agent (spec/00_scope.md R13). -/
def step (s : State) : Host.Outcome State Fault Refusal := agentStep s

/-- The state in which the host's next move is to write the command word `w` to the free port (DESIGN CHOICE,
log entry 5). -/
def State.withFetchWord (s : State) (_nbits w : Nat) : State := offerWord (BitVec.ofNat 16 w) s

end Sys2Proof.Machine
end

