-- ==== Sys2Proof/Safety.lean ====
section
/-! DEFINITION. The terms the statements use: positions of the micro-programs as the spec lists them, rest and hang
(spec/70_reset_and_hazards.md R154, spec/60_exceptions.md R117), and the three invariants: of the bus engine
(spec/40_bus_engine.md R80), of the cursor (spec/10_state.md R19) and of the SELECT-only discipline
(spec/42_playback_select.md R104). -/

namespace Sys2Proof.Machine

/-! ### Positions -/

/-- How many micro-steps a command has (spec/95_test_vectors.md, conventions). PULL has none in the foreground. -/
def programLength : Instr → Nat
  | .enable => 1
  | .disable => 1
  | .start => 2
  | .rstart => 2
  | .stop => 2
  | .send _ => 2
  | .read _ => 3
  | .openClip _ => 19
  | .close => 7
  | .pull => 0
  | .select _ => 27
  | .tickctl _ => 1

/-- The micro-steps of a command that are `await` (R84 to R88, R93, R96, R101). -/
def awaitSteps : Instr → List Nat
  | .start => [1]
  | .rstart => [1]
  | .stop => [1]
  | .send _ => [1]
  | .read _ => [1]
  | .openClip _ => [2, 4, 6, 8, 11, 14]
  | .close => [2, 5]
  | .select _ => [3, 6, 9, 11, 13, 15, 18, 21]
  | _ => []

/-- The commands that take the guard (R92). -/
def takesGuard : Instr → Bool
  | .openClip _ => true
  | .close => true
  | .select _ => true
  | _ => false

/-- The command a sequencer position stands in, and its next micro-step. -/
def commandAt : Position → Option (Instr × Nat)
  | .idle => none
  | .run w k =>
    match decodeWord w with
    | .ok i => some (i, k)
    | .error _ => none

/-- The command in progress and its next micro-step. -/
def running (s : State) : Option (Instr × Nat) := commandAt s.fg

/-- The foreground stands at micro-step `k` of the running word `w`, and the handler does not run. -/
def standsAt (w : Word) (k : Nat) (s : State) : Prop := s.inIsr = false ∧ s.fg = .run w k

/-- The script's next move is a power-on. -/
def powerOnNext (s : State) : Prop := ∃ rest, s.script = .powerOn :: rest

/-- A rest state (R154). -/
def atRest (s : State) : Prop :=
  s.fault = none ∧ s.fg = .idle ∧ s.inIsr = false ∧ s.busy = false ∧ s.tickPend = false

/-! ### What a micro-step leaves, written out from the spec's listings -/

/-- `FG` moved to micro-step `k` of `w`. -/
def movedTo (w : Word) (k : Nat) (s : State) : State := { s with fg := .run w k }

/-- What `issue p` leaves in the foreground when it stands at micro-step `k` (R76). -/
def issueLeaves (p : Prim) (w : Word) (k : Nat) (s : State) : State :=
  if s.busy = true then { s with fault := some (.framingFault p) }
  else if nextSess s.cfg s.sess p = none then { s with fault := some (.protocolFault s.sess (.prim p)) }
  else { s with inflight := some p, busy := true, fg := .run w (k + 1) }

/-- What `await` leaves in the foreground when it stands at micro-step `k` (R77). -/
def awaitLeaves (w : Word) (k : Nat) (s : State) : State := if s.busy = true then s else movedTo w (k + 1) s

/-- `guard_on` leaves `GUARD` set in the explicit mode and as it was in the other (R92). -/
def guardTaken (s : State) : Bool := s.guard || s.cfg.guardMode == .explicit

/-- What micro-step `k` of OPEN leaves, `c` being the selected clip (R93). -/
def openLeaves (c : Clip) (w : Word) (k : Nat) (s : State) : State :=
  match k with
  | 0 => movedTo w 1 { s with guard := guardTaken s }
  | 1 => issueLeaves .start w 1 s
  | 2 => awaitLeaves w 2 s
  | 3 => issueLeaves (.send s.cfg.devWr) w 3 s
  | 4 => awaitLeaves w 4 s
  | 5 => issueLeaves (.send (c.base.extractLsb' 8 8)) w 5 s
  | 6 => awaitLeaves w 6 s
  | 7 => issueLeaves (.send (c.base.extractLsb' 0 8)) w 7 s
  | 8 => awaitLeaves w 8 s
  | 9 => movedTo w 10 s
  | 10 => issueLeaves .rstart w 10 s
  | 11 => awaitLeaves w 11 s
  | 12 => movedTo w 13 s
  | 13 => issueLeaves (.send s.cfg.devRd) w 13 s
  | 14 => awaitLeaves w 14 s
  | 15 => movedTo w 16 { s with lim := c.len }
  | 16 => movedTo w 17 { s with pos := 0#16 }
  | 17 => movedTo w 18 { s with div := 0 }
  | _ => { s with guard := false, fg := .idle }

/-- What micro-step `k` of CLOSE leaves (R96). -/
def closeLeaves (w : Word) (k : Nat) (s : State) : State :=
  match k with
  | 0 => movedTo w 1 { s with guard := guardTaken s }
  | 1 => issueLeaves (.read .nack) w 1 s
  | 2 => awaitLeaves w 2 s
  | 3 => movedTo w 4 { s with duty := s.data, trace := s.trace ++ [.duty s.data] }
  | 4 => issueLeaves .stop w 4 s
  | 5 => awaitLeaves w 5 s
  | _ => { s with guard := false, fg := .idle }

/-- What micro-step `k` of SELECT leaves, `c` being the selected clip (R101). -/
def selectLeaves (c : Clip) (w : Word) (k : Nat) (s : State) : State :=
  match k with
  | 0 => movedTo w 1 { s with guard := guardTaken s }
  | 1 => if s.openf = false then movedTo w 8 s else movedTo w 2 s
  | 2 => issueLeaves (.read .nack) w 2 s
  | 3 => awaitLeaves w 3 s
  | 4 => movedTo w 5 { s with duty := s.data, trace := s.trace ++ [.duty s.data] }
  | 5 => issueLeaves .stop w 5 s
  | 6 => awaitLeaves w 6 s
  | 7 => movedTo w 8 s
  | 8 => issueLeaves .start w 8 s
  | 9 => awaitLeaves w 9 s
  | 10 => issueLeaves (.send s.cfg.devWr) w 10 s
  | 11 => awaitLeaves w 11 s
  | 12 => issueLeaves (.send (c.base.extractLsb' 8 8)) w 12 s
  | 13 => awaitLeaves w 13 s
  | 14 => issueLeaves (.send (c.base.extractLsb' 0 8)) w 14 s
  | 15 => awaitLeaves w 15 s
  | 16 => movedTo w 17 s
  | 17 => issueLeaves .rstart w 17 s
  | 18 => awaitLeaves w 18 s
  | 19 => movedTo w 20 s
  | 20 => issueLeaves (.send s.cfg.devRd) w 20 s
  | 21 => awaitLeaves w 21 s
  | 22 => movedTo w 23 { s with lim := c.len }
  | 23 => movedTo w 24 { s with pos := 0#16 }
  | 24 => movedTo w 25 { s with div := 0 }
  | 25 => movedTo w 26 { s with openf := true }
  | _ => { s with guard := false, fg := .idle }

/-- What the handler's micro-step 2, `issue READ(ACK)`, leaves (R76, R107). -/
def handlerIssueLeaves (s : State) : State :=
  if s.busy = true then { s with fault := some (.framingFault (.read .ack)) }
  else if s.sess ≠ .sr then { s with fault := some (.protocolFault s.sess (.prim (.read .ack))) }
  else { s with inflight := some (.read .ack), busy := true, isrpc := 3 }

/-- What the handler's micro-steps 1 to 4, the pull, leave (R98, R107). -/
def pullLeaves (s : State) : State :=
  match s.isrpc with
  | 1 => { s with isrpc := if s.pos < s.lim then 2 else 7 }
  | 2 => handlerIssueLeaves s
  | 3 => if s.busy = true then s else { s with isrpc := 4 }
  | _ => { s with pos := s.pos + 1#16, isrpc := 5 }

/-- What the handler's micro-step at `ISRPC` leaves (R107). -/
def handlerLeaves (s : State) : State :=
  match s.isrpc with
  | 0 => { s with isrpc := if s.div = 0 then 1 else 6 }
  | 5 => { s with duty := s.data, trace := s.trace ++ [.duty s.data], isrpc := 8 }
  | 6 => { s with trace := s.trace ++ [.duty s.duty], isrpc := 8 }
  | 7 => { s with duty := 0#8, trace := s.trace ++ [.duty 0#8], isrpc := 8 }
  | 8 => { s with div := (s.div + 1) % s.cfg.ticksPerSample, isrpc := 9 }
  | 9 => { s with inIsr := false }
  | _ => pullLeaves s

/-! ### Runs -/

/-- The machine is at rest on a responsive bus, and the host's one remaining move is to write the word `w`. -/
def offered (w : Word) (s : State) : Prop :=
  atRest s ∧ s.inflight = none ∧ s.guard = false ∧ s.responsive = true ∧ s.script = [.host (.write 0 w)]

/-- The handler has just been entered, nothing is in flight, and the environment makes no move. -/
def handlerEntered (s : State) : Prop :=
  s.fault = none ∧ s.inIsr = true ∧ s.isrpc = 0 ∧ s.busy = false ∧ s.inflight = none ∧ s.responsive = true ∧
    s.script = []

/-- Some number of steps from `s` ends in `t`. -/
def leadsTo (s t : State) : Prop := ∃ n, Host.Core.run Sys2Proof.core n s = .next t

/-! ### Frames -/

/-- Everything outside the block is as before: the peer with every byte of its array, the environment's choices, the
configuration. -/
def SameEnvironment (s t : State) : Prop :=
  (∀ a, Memory.read t.eeprom a = Memory.read s.eeprom a) ∧ t.ptr = s.ptr ∧ t.wcnt = s.wcnt ∧ t.ah = s.ah ∧
    t.responsive = s.responsive ∧ t.draws = s.draws ∧ t.script = s.script ∧ t.cfg = s.cfg

/-- The cursor and its divider are as before. -/
def SameCursor (s t : State) : Prop := t.pos = s.pos ∧ t.lim = s.lim ∧ t.div = s.div

/-- The registers of the sample interrupt that no command but TICKCTL writes are as before. -/
def SameInterrupt (s t : State) : Prop := t.tickPend = s.tickPend ∧ t.inIsr = s.inIsr ∧ t.isrpc = s.isrpc

/-! ### The invariant of the bus engine (R80) -/

/-- What holds of the engine, the sequencer positions, the guard and the peer in every state the block reaches. -/
structure EngineInv (s : State) : Prop where
  /-- `BUSY = 1` exactly when `INFLIGHT` is not `none` (R38, R80). -/
  busy_iff : s.busy = s.inflight.isSome
  /-- `EN = 0` implies `SESS = S0` (R80). -/
  disabled_idle : s.en = false → s.sess = .s0
  busy_enabled : s.busy = true → s.en = true
  /-- A primitive in flight is awaited by the context that issued it (R76, R77). -/
  busy_awaited : s.busy = true →
    (s.inIsr = true ∧ s.isrpc = 3) ∨ ∃ i k, running s = some (i, k) ∧ k ∈ awaitSteps i
  /-- What is in flight was admitted, and the session has not moved since (R76, R80). -/
  inflight_admitted : ∀ p, s.inflight = some p → nextSess s.cfg s.sess p ≠ none
  /-- A running word is an accepted command at one of its micro-steps (R22, R61, R67). -/
  run_accepted : ∀ w k, s.fg = .run w k → ∃ i, decodeWord w = .ok i ∧ k < programLength i ∧
    (needsEngine i = true → s.en = true) ∧ selectorInTable s.cfg i = true
  isr_position : s.inIsr = true → s.isrpc ≤ 9
  /-- The guard is up only inside a guarded command, and only in the explicit mode (R31, R92). -/
  guard_inside : s.guard = true → s.cfg.guardMode = .explicit ∧ s.inIsr = false ∧
    ∃ i k, running s = some (i, k) ∧ takesGuard i = true ∧ 1 ≤ k
  /-- In the explicit mode the guard is up from `guard_on` to `guard_off` (R92). -/
  guard_taken : s.cfg.guardMode = .explicit → ∀ i k, running s = some (i, k) → takesGuard i = true →
    1 ≤ k → s.guard = true
  /-- The premise on the configuration (R7, R8, R44). -/
  well_formed : s.cfg.wellFormed = true
  /-- `PTR` is a number below `EEPROM_SIZE` (R50). -/
  ptr_below : s.ptr < s.cfg.eepromSize
  /-- `WCNT` is in 0..2 (R50). -/
  wcnt_le : s.wcnt ≤ 2
  /-- `DIV` counts from 0 to `TICKS_PER_SAMPLE - 1` (R32). -/
  div_below : s.div < s.cfg.ticksPerSample
  mem_wf : Memory.wf s.eeprom = true
  mem_below : Memory.below s.cfg.eepromSize s.eeprom = true

/-! ### The invariant of the cursor (R19) -/

/-- The foreground stands between the write of `LIM` and the write of `POS` (R93 step 16, R101 step 23). -/
def betweenLimAndPos (s : State) : Prop :=
  (∃ n, running s = some (.openClip n, 16)) ∨ ∃ n, running s = some (.select n, 23)

/-- From the handler's test to its increment there is a sample left (R91, R98). -/
def PullInRange (s : State) : Prop := s.inIsr = true → 2 ≤ s.isrpc → s.isrpc ≤ 4 → s.pos < s.lim

/-- `POS <= LIM` wherever another agent can look, with the explicit guard (R19, R145). -/
structure CursorInv (s : State) : Prop where
  engine : EngineInv s
  guarded : s.cfg.guardMode = .explicit
  pos_le_lim : s.pos ≤ s.lim ∨ betweenLimAndPos s
  pull_in_range : PullInRange s

/-! ### The SELECT-only discipline (R104) -/

/-- The commands a host under the discipline writes; a PULL it writes is dropped (R104, R119). -/
def disciplinedCommand : Instr → Bool
  | .enable => true
  | .pull => true
  | .select _ => true
  | .tickctl _ => true
  | _ => false

/-- The moves of such a host; the other agents' moves are free. -/
def disciplinedTurn : Turn → Bool
  | .host (.write n w) =>
    n != 0 ||
      (match decodeWord w with
       | .ok i => disciplinedCommand i
       | .error _ => true)
  | _ => true

/-- The session in which SELECT stands at micro-step `k`, before (`busy`) and after the completion of what it has
issued (R101). -/
def selectSess (openf busy : Bool) (k : Nat) : Sess :=
  if k ≤ 1 then (if openf then .sr else .s0)
  else if k = 2 then .sr
  else if k = 3 then (if busy then .sr else .sn)
  else if k ≤ 5 then .sn
  else if k = 6 then (if busy then .sn else .s0)
  else if k ≤ 8 then .s0
  else if k = 9 then (if busy then .s0 else .s1)
  else if k = 10 then .s1
  else if k = 11 then (if busy then .s1 else .sw)
  else if k ≤ 17 then .sw
  else if k = 18 then (if busy then .sw else .s1)
  else if k ≤ 20 then .s1
  else if k = 21 then (if busy then .s1 else .sr)
  else .sr

/-- The primitive SELECT awaits at micro-step `k` (R101). -/
def selectPrim (cfg : Config) (n : Byte) (k : Nat) : Option Prim :=
  match k with
  | 3 => some (.read .nack)
  | 6 => some .stop
  | 9 => some .start
  | 11 => some (.send cfg.devWr)
  | 13 => (clipAt cfg n).map fun c => .send (hiByte c.base)
  | 15 => (clipAt cfg n).map fun c => .send (loByte c.base)
  | 18 => some .rstart
  | 21 => some (.send cfg.devRd)
  | _ => none

/-- How many address bytes the reference peer has when SELECT stands at micro-step `k` of its write phase (R51). -/
def selectWcnt (busy : Bool) (k : Nat) : Option Nat :=
  match k with
  | 9 => if busy then none else some 0
  | 10 => some 0
  | 11 => some 0
  | 12 => some 0
  | 13 => some (if busy then 0 else 1)
  | 14 => some 1
  | 15 => some (if busy then 1 else 2)
  | _ => none

/-- What holds at every step of a host that starts and stops streams only with SELECT, with the explicit guard. -/
structure SelectOnlyInv (s : State) : Prop where
  engine : EngineInv s
  guarded : s.cfg.guardMode = .explicit
  no_fault : s.fault = none
  script_disciplined : ∀ t ∈ s.script, disciplinedTurn t = true
  running_disciplined : ∀ i k, running s = some (i, k) → disciplinedCommand i = true
  /-- R104, wherever the guard is down, at every acceptance of a command among them. -/
  outside : s.guard = false →
    s.sess = (if s.openf then .sr else .s0) ∧ (s.pos < s.lim → s.openf = true)
  /-- Inside SELECT the session is the one its micro-program has reached. -/
  inside : ∀ n k, s.guard = true → running s = some (.select n, k) →
    s.sess = selectSess s.openf s.busy k ∧
    (s.busy = true → s.inflight = selectPrim s.cfg n k) ∧
    (s.cfg.oracle = .reference → ∀ c, selectWcnt s.busy k = some c → s.wcnt = c) ∧
    (2 ≤ k → k ≤ 7 → s.openf = true) ∧ (k = 26 → s.openf = true)
  /-- With the guard down only the handler's pull can be in flight (R107 step 2). -/
  pulling : s.guard = false → s.busy = true → s.inflight = some (.read .ack)
  pull_in_range : PullInRange s

end Sys2Proof.Machine
end

