-- ==== Sys2Proof/Certificates/Slice0/Obligations.lean ====
section
/-! DEFINITION. The statements for the provers. Each docstring names the rules of spec/ it formalises. -/

open Sys2Proof Sys2Proof.Machine

/-! ### The command word -/

/-- spec/30_encoding.md R62 to R64: the word of every command, with every operand, decodes to that command. -/
def Obligations.DecodeOfEncode : Prop := ∀ i : Instr, decodeWord (encode i) = .ok i

/-- spec/30_encoding.md R62 to R64: a word that decodes is the word of what it decodes to, so no bit is dropped. -/
def Obligations.EncodeOfDecode : Prop := ∀ (w : Word) (i : Instr), decodeWord w = .ok i → encode i = w

/-- spec/30_encoding.md R64, R66 and spec/95_test_vectors.md V-D: words written out from the table decode to what they
stand for, and the rows are disjoint. -/
def Obligations.TableWordsDecode : Prop :=
  decodeTableWord 16 0x0100 = some .enable ∧ decodeTableWord 16 0x0300 = some .start ∧
  decodeTableWord 16 0x06A0 = some (.send 0xA0#8) ∧ decodeTableWord 16 0x0701 = some (.read .ack) ∧
  decodeTableWord 16 0x0700 = some (.read .nack) ∧ decodeTableWord 16 0x0803 = some (.openClip 3#8) ∧
  decodeTableWord 16 0x0A00 = some .pull ∧ decodeTableWord 16 0x0BFF = some (.select 0xFF#8) ∧
  decodeTableWord 16 0x0C01 = some (.tickctl true) ∧ decodeTableWord 16 0x0000 = none ∧
  decodeTableWord 16 0x0702 = none ∧
  opcodeMap.Pairwise fun r q => (r.mask &&& q.mask) &&& (r.bits ^^^ q.bits) ≠ 0#16

/-- spec/30_encoding.md R66: exactly the words the rule lists are illegal, and an illegal word written to the free port
is dropped: nothing but the host's script changes. -/
def Obligations.IllegalWordsAreDropped : Prop :=
  (∀ w : Word, (∀ i, decodeWord w ≠ .ok i) ↔
    (opField w = 0x00#8 ∨ 0x0D#8 ≤ opField w ∨
      (opField w ∈ [0x01#8, 0x02#8, 0x03#8, 0x04#8, 0x05#8, 0x09#8, 0x0A#8] ∧ argField w ≠ 0#8) ∨
      (opField w ∈ [0x07#8, 0x0C#8] ∧ (argField w).extractLsb' 1 7 ≠ 0#7))) ∧
  ∀ (w : Word) (s : State) (rest : List Turn), (∀ i, decodeWord w ≠ .ok i) → s.fault = none →
    s.script = .host (.write 0 w) :: rest → portFree s = true → entryEnabled s = false →
    step s = .next { s with script := rest }

/-! ### The configuration -/

/-- spec/00_scope.md R7, R8, spec/20_memory.md R44: a table is well formed exactly when it has 1 to 256 clips, every clip lies
inside the array, and no byte lies in two clips' ranges; and every state's table is, whatever the state. An empty range has no
byte in it (log entry 20). -/
def Obligations.ClipTableIsWellFormed : Prop :=
  let inside (d : Clip) (a : Nat) : Prop := d.base.toNat ≤ a ∧ a < d.base.toNat + d.len.toNat
  let fits (p : Parameters) : Prop :=
    1 ≤ p.clips.length ∧ p.clips.length ≤ 256 ∧
    (∀ (n : Nat) (d : Clip), p.clips[n]? = some d →
      d.base.toNat < p.eepromSize ∧ d.base.toNat + d.len.toNat ≤ p.eepromSize) ∧
    ∀ (m n : Nat) (d e : Clip) (a : Nat), m ≠ n → p.clips[m]? = some d → p.clips[n]? = some e →
      ¬(inside d a ∧ inside e a)
  (∀ p : Parameters, p.tableOk = true ↔ fits p) ∧ ∀ s : State, fits s.cfg.toParameters

/-! ### The port and the step -/

/-- spec/30_encoding.md R67: the checks at the free port, in order, each with its reason; a word that passes is accepted,
a word that fails one leaves the state as it was. Check 1 is the decoder's, and comes before the others. -/
def Obligations.PortChecksInOrder : Prop :=
  ∀ (i : Instr) (s : State), s.inIsr = false → s.fg = .idle →
    let exempt := i = .enable ∨ i = .disable ∨ ∃ e, i = .tickctl e
    let outOfTable := ∃ n, (i = .openClip n ∨ i = .select n) ∧ s.cfg.clips.length ≤ n.toNat
    (∀ w, (∀ j, decodeWord w ≠ .ok j) → writeCommand w s = .next s) ∧
    (∀ w, decodeWord w = .ok i → writeCommand w s = exec i s) ∧
    (i = .pull → portCheck i s = some .wrongContext ∧ exec i s = .next s) ∧
    (i ≠ .pull → ¬exempt → s.en = false → portCheck i s = some .notEnabled ∧ exec i s = .next s) ∧
    ((exempt ∨ s.en = true) → outOfTable → portCheck i s = some .selRange ∧ exec i s = .next s) ∧
    (i = .close → s.en = true → s.openf = false → portCheck i s = some .notOpen ∧ exec i s = .next s) ∧
    (i ≠ .pull → (exempt ∨ s.en = true) → ¬outOfTable → (i = .close → s.openf = true) →
      portCheck i s = none ∧ exec i s = .next { s with fg := .run (encode i) 0 })

/-- spec/00_scope.md R13, spec/30_encoding.md R61: a command word the host writes to the free port, with no tick to be taken
first, is run by exec; the step adds only that the host's move is used up. -/
def Obligations.StepRunsTheWrittenCommand : Prop :=
  ∀ (s : State) (w : Word) (rest : List Turn) (i : Instr), s.fault = none →
    s.script = .host (.write 0 w) :: rest → portFree s = true → entryEnabled s = false → decodeWord w = .ok i →
    step s = exec i { s with script := rest }

/-- spec/10_state.md R22, R23: the command in progress goes on by exec, whether the sequencer's turn is the script's or the
block's own. Whose turn it is while the script is empty is the model's choice (log entry 4). -/
def Obligations.StepRunsTheCommandInProgress : Prop :=
  ∀ (s : State) (w : Word) (k : Nat) (i : Instr), s.fault = none → s.inIsr = false → entryEnabled s = false →
    s.fg = .run w k → decodeWord w = .ok i →
    (s.script = [] → completionEnabled s = false → step s = exec i s) ∧
    ∀ rest, s.script = .sequencer :: rest → step s = exec i { s with script := rest }

/-- spec/43_sample_clock_pwm.md R107, spec/41_stream_controller.md R98: inside the handler the sequencer's turn is the
handler's micro-step, and its micro-steps 1 to 4 are exec of PULL. Whose turn it is while the script is empty is the model's
choice (log entry 4). -/
def Obligations.StepRunsTheHandlerAndPull : Prop :=
  ∀ s : State, s.fault = none → s.inIsr = true →
    (s.script = [] → completionEnabled s = false → step s = handlerStep s) ∧
    (∀ rest, s.script = .sequencer :: rest → step s = handlerStep { s with script := rest }) ∧
    (1 ≤ s.isrpc → s.isrpc ≤ 4 → handlerStep s = exec .pull s)

/-! ### ENABLE, DISABLE, TICKCTL -/

/-- spec/40_bus_engine.md R82: ENABLE's one micro-step sets `EN`, whatever the session, and changes nothing else; it
is accepted whatever `EN` is. -/
def Obligations.EnableSetsEn : Prop :=
  (∀ (s : State) (w : Word), standsAt w 0 s → exec .enable s = .next { s with en := true, fg := .idle }) ∧
  ∀ s : State, s.inIsr = false → s.fg = .idle → exec .enable s = .next { s with fg := .run 0x0100#16 0 }

/-- spec/40_bus_engine.md R83: DISABLE's one micro-step clears `EN` outside a session, and inside one raises
`ProtocolFault(SESS, DISABLE)`; it is accepted whatever `EN` is. -/
def Obligations.DisableClearsEnOutsideASession : Prop :=
  (∀ (s : State) (w : Word), standsAt w 0 s → s.sess = .s0 →
    exec .disable s = .next { s with en := false, fg := .idle }) ∧
  (∀ (s : State) (w : Word), standsAt w 0 s → s.sess ≠ .s0 →
    exec .disable s = .next { s with fault := some (.protocolFault s.sess .disable) }) ∧
  ∀ s : State, s.inIsr = false → s.fg = .idle → exec .disable s = .next { s with fg := .run 0x0200#16 0 }

/-- spec/43_sample_clock_pwm.md R111: TICKCTL's one micro-step writes `TICK_EN` and nothing else, so a latched tick
stays latched; it is accepted whatever `EN` is. -/
def Obligations.TickctlWritesTickEn : Prop :=
  (∀ (e : Bool) (s : State) (w : Word), standsAt w 0 s →
    exec (.tickctl e) s = .next { s with tickEn := e, fg := .idle }) ∧
  ∀ (e : Bool) (s : State), s.inIsr = false → s.fg = .idle →
    exec (.tickctl e) s = .next { s with fg := .run (if e then 0x0C01#16 else 0x0C00#16) 0 }

/-! ### The primitive commands -/

/-- spec/40_bus_engine.md R76, R79, R84 to R88: micro-step 0 of START, RSTART, STOP, SEND and READ, with no primitive in
flight and in a session that admits it, hands the primitive to the bus engine and changes nothing else. -/
def Obligations.PrimitiveCommandsIssue : Prop :=
  ∀ (s : State) (w : Word), standsAt w 0 s → s.busy = false →
    let issued (p : Prim) : State := { s with inflight := some p, busy := true, fg := .run w 1 }
    (s.sess = .s0 → exec .start s = .next (issued .start)) ∧
    (s.sess = .sw → exec .rstart s = .next (issued .rstart)) ∧
    (s.sess = .sn → exec .stop s = .next (issued .stop)) ∧
    (∀ v, s.sess = .sw ∨ (s.sess = .s1 ∧ (v = s.cfg.devWr ∨ v = s.cfg.devRd)) →
      exec (.send v) s = .next (issued (.send v))) ∧
    ∀ k, s.sess = .sr → exec (.read k) s = .next (issued (.read k))

/-- spec/40_bus_engine.md R77, R84 to R88: micro-step 1 of the five waits while `BUSY = 1` and then ends the command, or
goes on to READ's micro-step 2, which returns the byte that stands in `DATA`. -/
def Obligations.PrimitiveCommandsAwaitAndReturn : Prop :=
  (∀ (s : State) (w : Word) (i : Instr), standsAt w 1 s →
    (i = .start ∨ i = .rstart ∨ i = .stop ∨ (∃ v, i = .send v) ∨ ∃ k, i = .read k) →
    (s.busy = true → exec i s = .next s) ∧
    (s.busy = false → (∀ k, i ≠ .read k) → exec i s = .next { s with fg := .idle }) ∧
    (s.busy = false → (∃ k, i = .read k) → exec i s = .next { s with fg := .run w 2 })) ∧
  ∀ (s : State) (w : Word) (k : Ack), standsAt w 2 s →
    exec (.read k) s = .next { s with replies := s.replies ++ [.byte s.data], fg := .idle }

/-- spec/40_bus_engine.md R76, R79, spec/60_exceptions.md R115, R128 (c): the same micro-step with a primitive in flight
records `FramingFault`, and else in a session that does not admit the primitive `ProtocolFault`; nothing else changes. -/
def Obligations.MisplacedPrimitivesFault : Prop :=
  ∀ (s : State) (w : Word), standsAt w 0 s →
    let framing (p : Prim) : State := { s with fault := some (.framingFault p) }
    let protocol (p : Prim) : State := { s with fault := some (.protocolFault s.sess (.prim p)) }
    (s.busy = true →
      exec .start s = .next (framing .start) ∧ exec .rstart s = .next (framing .rstart) ∧
      exec .stop s = .next (framing .stop) ∧ (∀ v, exec (.send v) s = .next (framing (.send v))) ∧
      ∀ k, exec (.read k) s = .next (framing (.read k))) ∧
    (s.busy = false →
      (s.sess ≠ .s0 → exec .start s = .next (protocol .start)) ∧
      (s.sess ≠ .sw → exec .rstart s = .next (protocol .rstart)) ∧
      (s.sess ≠ .sn → exec .stop s = .next (protocol .stop)) ∧
      (∀ v, s.sess ≠ .sw → ¬(s.sess = .s1 ∧ (v = s.cfg.devWr ∨ v = s.cfg.devRd)) →
        exec (.send v) s = .next (protocol (.send v))) ∧
      ∀ k, s.sess ≠ .sr → exec (.read k) s = .next (protocol (.read k)))

/-- spec/40_bus_engine.md R82 to R88, R81: START, RSTART, STOP, SEND and READ, offered at rest in a session that admits
them, run to their return against either oracle; every field not named is as before. A SEND's acknowledge `a` is on
the trace and nowhere else. That the reference peer's pointer wraps, and advances after NACK, is PRESUMED (log entry 18). -/
def Obligations.PrimitiveCommandsReturn : Prop :=
  ∀ s : State, s.en = true →
    let phase (u : State) : Nat := if u.cfg.oracle = .reference then 0 else u.wcnt
    (offered 0x0300#16 s → s.sess = .s0 →
      leadsTo s { s with script := [], sess := .s1, trace := s.trace ++ [.start], wcnt := phase s }) ∧
    (offered 0x0400#16 s → s.sess = .sw →
      leadsTo s { s with script := [], sess := .s1, trace := s.trace ++ [.rstart], wcnt := phase s }) ∧
    (offered 0x0500#16 s → s.sess = .sn →
      leadsTo s { s with script := [], sess := .s0, trace := s.trace ++ [.stop] }) ∧
    (∀ v, offered (encode (.send v)) s → s.sess = .s1 → (v = s.cfg.devWr ∨ v = s.cfg.devRd) →
      ∃ a t, leadsTo s t ∧ (s.cfg.oracle = .reference → a = .ack) ∧
        t = { s with script := [], sess := if v = s.cfg.devWr then .sw else .sr, trace := s.trace ++ [.tx v a],
                     draws := t.draws }) ∧
    (∀ v, offered (encode (.send v)) s → s.sess = .sw → (s.cfg.oracle = .reference → s.wcnt ≤ 1) →
      ∃ a t, leadsTo s t ∧ (s.cfg.oracle = .reference → a = .ack) ∧
        t = { s with script := [], trace := s.trace ++ [.tx v a], ptr := t.ptr, wcnt := t.wcnt, ah := t.ah,
                     draws := t.draws }) ∧
    ∀ k, offered (encode (.read k)) s → s.sess = .sr →
      ∃ b t, leadsTo s t ∧
        (s.cfg.oracle = .reference → b = memRead s s.ptr ∧ t.ptr = (s.ptr + 1) % s.cfg.eepromSize) ∧
        t = { s with script := [], data := b, sess := if k = .ack then .sr else .sn, trace := s.trace ++ [.rx b k],
                     replies := s.replies ++ [.byte b], ptr := t.ptr, draws := t.draws }

/-! ### The stream controller, SELECT, and the handler, step by step -/

/-- spec/41_stream_controller.md R93, R92, R94: every micro-step of OPEN n, `LIM` before `POS`. -/
def Obligations.OpenStepByStep : Prop :=
  ∀ (n : Byte) (c : Clip) (s : State) (w : Word) (k : Nat), standsAt w k s → s.cfg.clips[n.toNat]? = some c → k < 19 →
    exec (.openClip n) s = .next (openLeaves c w k s)

/-- spec/41_stream_controller.md R96, R92: every micro-step of CLOSE, the drain byte rendered before the stop. -/
def Obligations.CloseStepByStep : Prop :=
  ∀ (s : State) (w : Word) (k : Nat), standsAt w k s → k < 7 → exec .close s = .next (closeLeaves w k s)

/-- spec/42_playback_select.md R101, R92, R94: every micro-step of SELECT n, the close skipped when `OPENF = 0`. -/
def Obligations.SelectStepByStep : Prop :=
  ∀ (n : Byte) (c : Clip) (s : State) (w : Word) (k : Nat), standsAt w k s → s.cfg.clips[n.toNat]? = some c → k < 27 →
    exec (.select n) s = .next (selectLeaves c w k s)

/-- spec/41_stream_controller.md R98: inside the handler every micro-step of PULL; at the port, always, nothing. -/
def Obligations.PullStepByStep : Prop :=
  (∀ s : State, s.inIsr = true → 1 ≤ s.isrpc → s.isrpc ≤ 4 → exec .pull s = .next (pullLeaves s)) ∧
  ∀ s : State, s.inIsr = false → s.fg = .idle → exec .pull s = .next s

/-- spec/43_sample_clock_pwm.md R107: every micro-step of the handler. That `ISRPC`, meaningless after the exit
(spec/10_state.md R22), keeps 9 there is the model's choice (log entry 13). -/
def Obligations.HandlerStepByStep : Prop :=
  ∀ s : State, s.isrpc ≤ 9 → handlerStep s = .next (handlerLeaves s)

/-! ### Whole commands and whole handler runs -/

/-- spec/41_stream_controller.md R93 (S1 of spec/95_test_vectors.md): OPEN n, offered at rest with the engine enabled and
no session, returns with `POS = 0`, `LIM = CLIP[n].len`, the addressed read on the trace and the session in `SR`,
against either oracle; with the reference peer its pointer is the clip's base, which a well-formed table puts
inside the array (spec/00_scope.md R8). `OPENF`, `DUTY` and `DATA` are as before. -/
def Obligations.OpenReturns : Prop :=
  ∀ (n : Byte) (c : Clip) (s : State), offered (encode (.openClip n)) s → s.en = true → s.sess = .s0 →
    s.cfg.clips[n.toNat]? = some c →
    ∃ a₁ a₂ a₃ a₄ t, leadsTo s t ∧
      (s.cfg.oracle = .reference → [a₁, a₂, a₃, a₄] = [.ack, .ack, .ack, .ack] ∧
        t.ptr = c.base.toNat) ∧
      t = { s with script := [], pos := 0#16, lim := c.len, div := 0, sess := .sr,
                   trace := s.trace ++ [.start, .tx s.cfg.devWr a₁, .tx (c.base.extractLsb' 8 8) a₂,
                     .tx (c.base.extractLsb' 0 8) a₃, .rstart, .tx s.cfg.devRd a₄],
                   ptr := t.ptr, wcnt := t.wcnt, ah := t.ah, draws := t.draws }

/-- spec/41_stream_controller.md R96, R97: CLOSE, offered at rest on an open stream, reads one byte with no-acknowledge,
renders it, and stops the session; the cursor and `OPENF` are as before. That the reference peer's pointer wraps, and advances
after the no-acknowledge, is PRESUMED (log entry 18). -/
def Obligations.CloseReturns : Prop :=
  ∀ s : State, offered 0x0900#16 s → s.en = true → s.openf = true → s.sess = .sr →
    ∃ b t, leadsTo s t ∧
      (s.cfg.oracle = .reference → b = memRead s s.ptr ∧ t.ptr = (s.ptr + 1) % s.cfg.eepromSize) ∧
      t = { s with script := [], data := b, duty := b, sess := .s0,
                   trace := s.trace ++ [.rx b .nack, .duty b, .stop], ptr := t.ptr, draws := t.draws }

/-- spec/42_playback_select.md R102 (S4): the first SELECT opens and closes nothing: no byte is read, `DUTY` is not
written, no stop is sent. -/
def Obligations.FirstSelectionOpensOnly : Prop :=
  ∀ (n : Byte) (c : Clip) (s : State), offered (encode (.select n)) s → s.en = true → s.openf = false →
    s.sess = .s0 → s.cfg.clips[n.toNat]? = some c →
    ∃ a₁ a₂ a₃ a₄ t, leadsTo s t ∧
      (s.cfg.oracle = .reference → [a₁, a₂, a₃, a₄] = [.ack, .ack, .ack, .ack] ∧
        t.ptr = c.base.toNat) ∧
      t = { s with script := [], openf := true, pos := 0#16, lim := c.len, div := 0, sess := .sr,
                   trace := s.trace ++ [.start, .tx s.cfg.devWr a₁, .tx (c.base.extractLsb' 8 8) a₂,
                     .tx (c.base.extractLsb' 0 8) a₃, .rstart, .tx s.cfg.devRd a₄],
                   ptr := t.ptr, wcnt := t.wcnt, ah := t.ah, draws := t.draws }

/-- spec/42_playback_select.md R103 (S3): a SELECT on an open stream closes exactly once, rendering one drain byte, and
then opens, whatever had been played. -/
def Obligations.ReselectionClosesOnceThenOpens : Prop :=
  ∀ (n : Byte) (c : Clip) (s : State), offered (encode (.select n)) s → s.en = true → s.openf = true →
    s.sess = .sr → s.cfg.clips[n.toNat]? = some c →
    ∃ b a₁ a₂ a₃ a₄ t, leadsTo s t ∧
      (s.cfg.oracle = .reference → b = memRead s s.ptr ∧ [a₁, a₂, a₃, a₄] = [.ack, .ack, .ack, .ack] ∧
        t.ptr = c.base.toNat) ∧
      t = { s with script := [], data := b, duty := b, pos := 0#16, lim := c.len, div := 0, sess := .sr,
                   trace := s.trace ++ [.rx b .nack, .duty b, .stop, .start, .tx s.cfg.devWr a₁,
                     .tx (c.base.extractLsb' 8 8) a₂, .tx (c.base.extractLsb' 0 8) a₃, .rstart,
                     .tx s.cfg.devRd a₄],
                   ptr := t.ptr, wcnt := t.wcnt, ah := t.ah, draws := t.draws }

/-- spec/43_sample_clock_pwm.md R107, spec/41_stream_controller.md R98 (S2): a handler run with `DIV = 0` and a sample
left pulls one byte, renders it and counts it. That the reference peer's pointer wraps is PRESUMED (log entry 18); that `ISRPC`,
meaningless after the exit (spec/10_state.md R22), keeps 9 is the model's choice (log entry 13). -/
def Obligations.PullingTickPlaysOneSample : Prop :=
  ∀ s : State, handlerEntered s → s.div = 0 → s.pos < s.lim → s.sess = .sr →
    ∃ b t, leadsTo s t ∧
      (s.cfg.oracle = .reference → b = memRead s s.ptr ∧ t.ptr = (s.ptr + 1) % s.cfg.eepromSize) ∧
      t = { s with inIsr := false, isrpc := 9, data := b, duty := b, pos := s.pos + 1#16,
                   div := 1 % s.cfg.ticksPerSample, trace := s.trace ++ [.rx b .ack, .duty b], ptr := t.ptr,
                   draws := t.draws }

/-- spec/43_sample_clock_pwm.md R107, R108: a handler run with `DIV = 0` and no sample left writes 0, and one with
`DIV` not 0 re-writes `DUTY`; neither touches the bus or the cursor, and each emits one `DUTY` event. That `ISRPC`, meaningless
after the exit (spec/10_state.md R22), keeps 9 is the model's choice (log entry 13). -/
def Obligations.OtherTicksLeaveTheBusAlone : Prop :=
  ∀ s : State, handlerEntered s →
    (s.div = 0 → ¬s.pos < s.lim →
      leadsTo s { s with inIsr := false, isrpc := 9, duty := 0#8, div := 1 % s.cfg.ticksPerSample,
                         trace := s.trace ++ [.duty 0#8] }) ∧
    (s.div ≠ 0 →
      leadsTo s { s with inIsr := false, isrpc := 9, div := (s.div + 1) % s.cfg.ticksPerSample,
                         trace := s.trace ++ [.duty s.duty] })

/-! ### The bus engine and its peer -/

/-- spec/40_bus_engine.md R79: the table of the session grammar, cell by cell; every other cell is empty. The two device bytes
differ by the premise on the configuration (spec/00_scope.md R7). -/
def Obligations.SessionGrammarTable : Prop :=
  ∀ (cfg : Config) (x y : Sess) (p : Prim),
    (nextSess cfg x p = some y ↔
      (x = .s0 ∧ p = .start ∧ y = .s1) ∨
      (x = .s1 ∧ p = .send cfg.devWr ∧ y = .sw) ∨ (x = .s1 ∧ p = .send cfg.devRd ∧ y = .sr) ∨
      (x = .sw ∧ p = .rstart ∧ y = .s1) ∨ (x = .sw ∧ (∃ b, p = .send b) ∧ y = .sw) ∨
      (x = .sr ∧ p = .read .ack ∧ y = .sr) ∨ (x = .sr ∧ p = .read .nack ∧ y = .sn) ∨
      (x = .sn ∧ p = .stop ∧ y = .s0))

/-- spec/40_bus_engine.md R78, spec/20_memory.md R51: completion of the three conditions. -/
def Obligations.ConditionsComplete : Prop :=
  ∀ s : State,
    let phase : Nat := if s.cfg.oracle = .reference then 0 else s.wcnt
    (s.inflight = some .start → complete s = .next
      { s with trace := s.trace ++ [.start], sess := .s1, inflight := none, busy := false, wcnt := phase }) ∧
    (s.inflight = some .rstart → complete s = .next
      { s with trace := s.trace ++ [.rstart], sess := .s1, inflight := none, busy := false, wcnt := phase }) ∧
    (s.inflight = some .stop → complete s = .next
      { s with trace := s.trace ++ [.stop], sess := .s0, inflight := none, busy := false })

/-- spec/20_memory.md R51, R53: the reference peer takes a device byte in `S1`, the two address bytes in `SW` (whatever
their value), and the model gives a third one no meaning. The reduction mod `EEPROM_SIZE` is PRESUMED (log entry 18), the refusal
is log entry 12. -/
def Obligations.ReferencePeerTakesBytes : Prop :=
  ∀ (s : State) (b : Byte), s.inflight = some (.send b) → s.cfg.oracle = .reference →
    let sentIn (u : State) (n : Sess) : State :=
      { u with trace := s.trace ++ [.tx b .ack], sess := n, inflight := none, busy := false }
    (s.sess = .s1 → b = s.cfg.devWr → complete s = .next (sentIn s .sw)) ∧
    (s.sess = .s1 → b ≠ s.cfg.devWr → b = s.cfg.devRd → complete s = .next (sentIn s .sr)) ∧
    (s.sess = .sw → s.wcnt = 0 → complete s = .next (sentIn { s with ah := b, wcnt := 1 } .sw)) ∧
    (s.sess = .sw → s.wcnt = 1 → complete s = .next
      (sentIn { s with ptr := (s.ah.toNat * 256 + b.toNat) % s.cfg.eepromSize, wcnt := 2 } .sw)) ∧
    (s.sess = .sw → 2 ≤ s.wcnt → complete s = .refused .unmodelledPeerWrite)

/-- spec/20_memory.md R52: the reference peer supplies the byte at its pointer and advances it by one, wrapping at
the end of the array, after ACK and NACK alike. The wrap and the advance after NACK are PRESUMED (log entry 18). -/
def Obligations.ReferencePeerSuppliesBytes : Prop :=
  ∀ (s : State) (k : Ack), s.inflight = some (.read k) → s.cfg.oracle = .reference → s.sess = .sr →
    s.ptr < s.cfg.eepromSize →
    complete s = .next
      { s with data := Memory.read s.eeprom s.ptr, trace := s.trace ++ [.rx (Memory.read s.eeprom s.ptr) k],
               sess := if k = .ack then .sr else .sn, inflight := none, busy := false,
               ptr := if s.ptr + 1 = s.cfg.eepromSize then 0 else s.ptr + 1 }

/-- spec/20_memory.md R55, spec/40_bus_engine.md R81: against the unconstrained oracle a byte sent completes with the
drawn acknowledge and a byte received is the drawn one; the acknowledge is on the trace and nowhere else, and the peer's
state plays no part. Holds for every value drawn. The counter `draws` that stands for the choice, and that each draw advances by
one, is the model's own (log entry 9). -/
def Obligations.UnconstrainedOracleDraws : Prop :=
  ∀ (s : State) (n : Sess), s.cfg.oracle = .unconstrained →
    (∀ b, s.inflight = some (.send b) → nextSess s.cfg s.sess (.send b) = some n →
      complete s = .next { s with trace := s.trace ++ [.tx b (Config.drawnAck s.draws)], sess := n, inflight := none,
                                  busy := false, draws := s.draws + 1 }) ∧
    ∀ k, s.inflight = some (.read k) → nextSess s.cfg s.sess (.read k) = some n →
      complete s = .next { s with data := Config.drawnByte s.draws,
                                  trace := s.trace ++ [.rx (Config.drawnByte s.draws) k], sess := n, inflight := none,
                                  busy := false, draws := s.draws + 1 }

/-- spec/60_exceptions.md R117: an unresponsive bus hangs a guarded command at its await, and the handler at its own: no
number of steps changes anything while the environment makes no move. A hang is no fault; that it is a run that never changes
is the form log entry 14 gives it. -/
def Obligations.UnresponsiveBusHangs : Prop :=
  ∀ (s : State) (n : Nat), s.fault = none → s.script = [] → s.busy = true → s.responsive = false →
    ((∃ w i k, s.inIsr = false ∧ s.guard = true ∧ s.fg = .run w k ∧ decodeWord w = .ok i ∧ k ∈ awaitSteps i) ∨
      (s.inIsr = true ∧ s.isrpc = 3)) →
    Host.Core.run Sys2Proof.core n s = .next s

/-! ### The sample interrupt -/

/-- spec/60_exceptions.md R126: a firing clock latches one tick when `TICK_EN = 1` and `IN_ISR = 0` and does nothing
else; nothing but it sets `TICK_PEND`, and only handler entry and reset clear it. -/
def Obligations.TicksAreLatchedByTheClockAlone : Prop :=
  (∀ (s : State) (rest : List Turn), s.fault = none → s.script = .clock :: rest →
    step s = .next { s with script := rest, tickPend := s.tickPend || (s.tickEn && !s.inIsr) }) ∧
  ∀ s t : State, step s = .next t → ¬powerOnNext s →
    (s.tickPend = false → t.tickPend = true → s.tickEn = true ∧ s.inIsr = false ∧ ∃ rest, s.script = .clock :: rest) ∧
    (s.tickPend = true → t.tickPend = false → s.inIsr = false ∧ t.inIsr = true)

/-- spec/60_exceptions.md R127: the entry of the handler is a step of the sequencer, enabled when `TICK_PEND = 1`,
`IN_ISR = 0` and `GUARD = 0`, whatever the foreground stands at, an `await` with a primitive in flight too; it saves nothing
and changes nothing else; and the handler is entered in no other way. -/
def Obligations.HandlerEntry : Prop :=
  (∀ (s : State) (rest : List Turn), s.fault = none → s.tickPend = true → s.inIsr = false → s.guard = false →
    s.script = .sequencer :: rest →
    step s = .next { s with inIsr := true, tickPend := false, isrpc := 0, script := rest }) ∧
  ∀ s t : State, step s = .next t → s.inIsr = false → t.inIsr = true →
    s.tickPend = true ∧ s.guard = false ∧
      t = { s with inIsr := true, tickPend := false, isrpc := 0, script := t.script }

/-- spec/60_exceptions.md R128 (a): the entry, when enabled, is taken before the next foreground micro-step and before a
command the host offers. That the bus engine's completion, where enabled, goes before it while the environment makes no move
is the model's choice (log entry 4). -/
def Obligations.HandlerEntryComesFirst : Prop :=
  ∀ s : State, s.fault = none → s.tickPend = true → s.inIsr = false → s.guard = false →
    (s.script = [] ∨ ∃ w rest, s.script = .host (.write 0 w) :: rest) → completionEnabled s = false →
    step s = .next { s with inIsr := true, tickPend := false, isrpc := 0 }

/-- spec/43_sample_clock_pwm.md R106, spec/60_exceptions.md R129, R132: while the handler runs no step of the block moves the
foreground or writes `LIM`, `OPENF`, `EN`, `TICK_EN`, `GUARD`, what it issues is READ(ACK), and only its last
micro-step leaves it, restoring nothing. That `ISRPC`, meaningless after the exit (spec/10_state.md R22), keeps 9 is the
model's choice (log entry 13). -/
def Obligations.HandlerConfined : Prop :=
  ∀ s t : State, step s = .next t → s.inIsr = true → ¬powerOnNext s →
    t.fg = s.fg ∧ t.lim = s.lim ∧ t.openf = s.openf ∧ t.en = s.en ∧ t.tickEn = s.tickEn ∧ t.guard = s.guard ∧
    (s.inflight = none → t.inflight = none ∨ t.inflight = some (.read .ack)) ∧
    (t.inIsr = false → s.isrpc = 9 ∧ t = { s with inIsr := false, script := t.script })

/-! ### Rules over all steps -/

/-- spec/10_state.md R26: `OPENF` is written only by SELECT, to 1; no operation clears it, only reset does. -/
def Obligations.OpenFlagIsPermanent : Prop :=
  ∀ s t : State, step s = .next t → ¬powerOnNext s →
    (s.openf = true → t.openf = true) ∧
    (s.openf = false → t.openf = true → s.inIsr = false ∧ ∃ n, running s = some (.select n, 25))

/-- spec/10_state.md R21: `DATA` is written only by the completion of READ. -/
def Obligations.DataIsWrittenByReadAlone : Prop :=
  ∀ s t : State, step s = .next t → ¬powerOnNext s → t.data ≠ s.data →
    s.busy = true ∧ s.responsive = true ∧ ∃ k, s.inflight = some (.read k) ∧ t.trace = s.trace ++ [.rx t.data k]

/-- spec/40_bus_engine.md R80: `SESS` changes only in the completion step. -/
def Obligations.SessionMovesAtCompletionAlone : Prop :=
  ∀ s t : State, step s = .next t → ¬powerOnNext s → t.sess ≠ s.sess →
    s.busy = true ∧ s.responsive = true ∧ t.busy = false ∧ t.inflight = none ∧ ∃ p, s.inflight = some p

/-- spec/10_state.md R20, spec/00_scope.md R11: a step emits at most one event; `DUTY` changes only with the event of the
value written, and an event `DUTY(v)` leaves `DUTY = v`. -/
def Obligations.DutyWritesAreOnTheTrace : Prop :=
  ∀ s t : State, step s = .next t → ¬powerOnNext s →
    (t.trace = s.trace ∧ t.duty = s.duty) ∨
    (∃ v, t.trace = s.trace ++ [.duty v] ∧ t.duty = v) ∨
    ∃ e, (∀ v, e ≠ .duty v) ∧ t.trace = s.trace ++ [e] ∧ t.duty = s.duty

/-- spec/10_state.md R17, R18, spec/20_memory.md R58 (a): `LIM` is written only by `open_stream`; `POS` is set to 0 only by
`open_stream`, after `LIM`, and else only incremented by the handler after a pull. -/
def Obligations.CursorHasTwoWriters : Prop :=
  ∀ s t : State, step s = .next t → ¬powerOnNext s →
    (t.lim ≠ s.lim → s.inIsr = false ∧ ∃ n, running s = some (.openClip n, 15) ∨ running s = some (.select n, 22)) ∧
    (t.pos ≠ s.pos →
      (s.inIsr = false ∧ t.pos = 0#16 ∧
        ∃ n, running s = some (.openClip n, 16) ∨ running s = some (.select n, 23)) ∨
      (s.inIsr = true ∧ s.isrpc = 4 ∧ t.pos = s.pos + 1#16))

/-- spec/20_memory.md R59, R50, spec/10_state.md R35: no step writes the peer's array or the configuration, the clip table in it;
so every byte reads as before and the canonical form is kept. -/
def Obligations.ArrayAndConfigurationAreNeverWritten : Prop :=
  ∀ s t : State, step s = .next t →
    (∀ a, Memory.read t.eeprom a = Memory.read s.eeprom a) ∧ Memory.wf t.eeprom = Memory.wf s.eeprom ∧ t.cfg = s.cfg

/-- spec/60_exceptions.md R115: once a fault is recorded no agent steps: every run from there answers it; only power-on clears
it. That a later step answers the recorded fault is the form log entry 10 gives it. -/
def Obligations.FaultIsFinal : Prop :=
  (∀ (s : State) (f : Fault) (n : Nat), s.fault = some f → ¬powerOnNext s →
    Host.Core.run Sys2Proof.core (n + 1) s = .fault f) ∧
  ∀ s t : State, step s = .next t → s.fault ≠ none → powerOnNext s ∧ t.fault = none

/-! ### Reset and the register view -/

/-- spec/10_state.md R42: the state after reset. `DATA` and the peer's pointer are free values and are not named. -/
def Obligations.ResetValues : Prop :=
  let s := State.reset
  s.pos = 0#16 ∧ s.lim = 0#16 ∧ s.duty = 0#8 ∧ s.en = false ∧ s.busy = false ∧ s.openf = false ∧ s.tickEn = false ∧
  s.tickPend = false ∧ s.inIsr = false ∧ s.guard = false ∧ s.div = 0 ∧ s.fg = .idle ∧ s.inflight = none ∧
  s.sess = .s0 ∧ s.fault = none ∧ s.trace = []

/-- spec/60_exceptions.md R137, spec/70_reset_and_hazards.md R141: power-on, from any state, a hung or faulted one too, gives
every element of the block its reset value; the array and the configuration stay (log entry 23). -/
def Obligations.PowerOnResetsFromAnyState : Prop :=
  ∀ (s : State) (rest : List Turn), s.script = .powerOn :: rest →
    ∃ t, step s = .next t ∧ t.eeprom = s.eeprom ∧ t.cfg = s.cfg ∧ t.script = rest ∧
      t.pos = 0#16 ∧ t.lim = 0#16 ∧ t.duty = 0#8 ∧ t.en = false ∧ t.busy = false ∧ t.openf = false ∧
      t.tickEn = false ∧ t.tickPend = false ∧ t.inIsr = false ∧ t.guard = false ∧ t.div = 0 ∧ t.fg = .idle ∧
      t.inflight = none ∧ t.sess = .s0 ∧ t.fault = none ∧ t.trace = []

/-- spec/70_reset_and_hazards.md R143: the boot sequence, ENABLE then TICKCTL ON, leads to the boot state: `EN = 1`,
`TICK_EN = 1`, everything else as it was. -/
def Obligations.BootSequenceLeadsToTheBootState : Prop :=
  ∀ s : State, atRest s → s.script = bootCommands →
    leadsTo s { s with en := true, tickEn := true, script := [] }

/-- spec/10_state.md R33: what the host reads from each register, without side effect; a write to any register but the port is
ignored. That a `DIV` of more than 16 bits shows its low 16 is the model's choice (log entry 19), and that a
read, unlike a write, does not wait for an enabled handler entry is its inference (log entry 24). -/
def Obligations.RegisterViewReads : Prop :=
  ∀ (s : State) (n : Fin 8) (rest : List Turn), s.fault = none → portFree s = true →
    (s.script = .host (.read n) :: rest →
      ∃ v, step s = .next { s with script := rest, replies := s.replies ++ [.reg n v] } ∧
        (n = 0 ∨ n = 7 → v = 0#16) ∧ (n = 1 → v = statusWord s) ∧ (n = 2 → v.toNat = s.data.toNat) ∧
        (n = 3 → v = s.pos) ∧ (n = 4 → v = s.lim) ∧ (n = 5 → v.toNat = s.duty.toNat) ∧
        (n = 6 → v.toNat = s.div % 65536)) ∧
    (∀ w, n ≠ 0 → entryEnabled s = false → s.script = .host (.write n w) :: rest →
      step s = .next { s with script := rest })

/-- spec/10_state.md R34: the bits of `STATUS`; and whenever the host runs, `BUSY`, `IN_ISR` and `GUARD` read 0. -/
def Obligations.StatusBits : Prop :=
  (∀ s : State,
    (statusWord s).getLsbD 0 = s.busy ∧ (statusWord s).getLsbD 1 = s.en ∧ (statusWord s).getLsbD 2 = s.openf ∧
    (statusWord s).getLsbD 3 = (s.pos == s.lim) ∧ (statusWord s).getLsbD 4 = s.tickEn ∧
    (statusWord s).getLsbD 5 = s.tickPend ∧ (statusWord s).getLsbD 6 = s.inIsr ∧
    (statusWord s).getLsbD 7 = s.guard ∧ ∀ j, 8 ≤ j → (statusWord s).getLsbD j = false) ∧
  ∀ s : State, EngineInv s → portFree s = true → s.busy = false ∧ s.inIsr = false ∧ s.guard = false

/-! ### Invariants -/

/-- The three invariants hold right after reset. They rest on the reset values of spec/10_state.md R42 and on the default
configuration (log entries 1 and 8). -/
def Obligations.InvariantsHoldAtReset : Prop :=
  EngineInv State.reset ∧ CursorInv State.reset ∧ SelectOnlyInv State.reset

/-- spec/40_bus_engine.md R80, with what R22, R31, R32, R38, R50, R67, R76 and R92 say of the same state: every step of every
agent keeps the invariant of the bus engine. -/
def Obligations.EngineInvariantKept : Prop :=
  ∀ s t : State, EngineInv s → step s = .next t → EngineInv t

/-- spec/60_exceptions.md R115, spec/20_memory.md R53: under that invariant a step stops only with the fault already
recorded, and is refused only at the third byte of a write phase. -/
def Obligations.EngineInvariantLeavesOnlyTheSpecsStops : Prop :=
  ∀ s : State, EngineInv s →
    (∀ f, step s = .fault f → s.fault = some f) ∧
    ∀ r, step s = .refused r → r = .unmodelledPeerWrite ∧ s.sess = .sw ∧ s.wcnt = 2 ∧
      s.cfg.oracle = .reference ∧ ∃ b, s.inflight = some (.send b)

/-- spec/10_state.md R19, spec/41_stream_controller.md R91: with the explicit guard every step keeps `POS <= LIM`, but between
the two cursor writes of `open_stream`, where the guard is up and no other agent observes. -/
def Obligations.CursorInvariantKept : Prop :=
  (∀ s t : State, CursorInv s → step s = .next t → CursorInv t) ∧
  ∀ s : State, CursorInv s → s.guard = false → s.pos ≤ s.lim

/-- spec/41_stream_controller.md R91: from the handler's test to its increment there is a sample left, in every state any
run reaches, with the guard or without; so the increment never wraps and never passes `LIM`, and an exhausted stream, one of
the greatest length too, is not incremented again. -/
def Obligations.PositionNeverWraps : Prop :=
  PullInRange State.reset ∧ (∀ s t : State, PullInRange s → step s = .next t → PullInRange t) ∧
  ∀ s : State, PullInRange s → s.inIsr = true →
    (s.isrpc = 4 → ∃ t, exec .pull s = .next t ∧ t.pos.toNat = s.pos.toNat + 1 ∧ t.pos ≤ t.lim) ∧
    (s.isrpc = 1 → ¬s.pos < s.lim → ∃ t, exec .pull s = .next t ∧ t.isrpc = 7 ∧ t.pos = s.pos)

/-- spec/42_playback_select.md R104: with the explicit guard and a host that starts and stops streams only with SELECT, every
step has a next state, no fault is ever raised, and the discipline's invariant is kept: at every acceptance of a command
`OPENF = 0` implies `SESS = S0` and `OPENF = 1` implies `SESS = SR`. -/
def Obligations.SelectOnlyHostNeverFaults : Prop :=
  (∀ s : State, SelectOnlyInv s → ∃ t, step s = .next t ∧ t.fault = none ∧ SelectOnlyInv t) ∧
  ∀ s : State, SelectOnlyInv s → s.fg = .idle → s.inIsr = false →
    (s.openf = false → s.sess = .s0) ∧ (s.openf = true → s.sess = .sr)

/-! ### Frames -/

/-- spec/40_bus_engine.md R82, R83, spec/43_sample_clock_pwm.md R111: ENABLE and DISABLE change nothing but `EN`, `FG` and,
for DISABLE, `FAULT`; TICKCTL nothing but `TICK_EN` and `FG`. -/
def Obligations.FrameOfTheSwitches : Prop :=
  ∀ (i : Instr) (s t : State), (i = .enable ∨ i = .disable ∨ ∃ e, i = .tickctl e) → exec i s = .next t →
    SameCursor s t ∧ SameInterrupt s t ∧ SameEnvironment s t ∧ t.duty = s.duty ∧ t.data = s.data ∧
    t.busy = s.busy ∧ t.inflight = s.inflight ∧ t.sess = s.sess ∧ t.openf = s.openf ∧ t.guard = s.guard ∧
    t.trace = s.trace ∧ t.replies = s.replies ∧ ((∃ e, i = .tickctl e) → t.en = s.en) ∧
    (i = .enable ∨ i = .disable → t.tickEn = s.tickEn) ∧ (i ≠ .disable → t.fault = s.fault)

/-- spec/40_bus_engine.md R84 to R88: one step of exec of START, RSTART, STOP, SEND and READ, the acceptance or one micro-step
(log entry 25), changes nothing but `BUSY`, `INFLIGHT`, `FG`, `FAULT` and, for READ, what the host receives; the rest of their effect is the
completion step's. -/
def Obligations.FrameOfThePrimitiveCommands : Prop :=
  ∀ (i : Instr) (s t : State),
    (i = .start ∨ i = .rstart ∨ i = .stop ∨ (∃ v, i = .send v) ∨ ∃ k, i = .read k) → exec i s = .next t →
    SameCursor s t ∧ SameInterrupt s t ∧ SameEnvironment s t ∧ t.duty = s.duty ∧ t.data = s.data ∧
    t.en = s.en ∧ t.sess = s.sess ∧ t.openf = s.openf ∧ t.tickEn = s.tickEn ∧ t.guard = s.guard ∧
    t.trace = s.trace ∧ ((∀ k, i ≠ .read k) → t.replies = s.replies)

/-- spec/41_stream_controller.md R93, R96, spec/42_playback_select.md R101, R103: what one step of exec of OPEN, CLOSE and SELECT, the
acceptance or one micro-step (log entry 25), does not write; the rest of their effect (`SESS`, the bus events, and for CLOSE and re-selection
`DATA`) is the completion step's. -/
def Obligations.FrameOfTheGuardedCommands : Prop :=
  ∀ (i : Instr) (s t : State), ((∃ n, i = .openClip n) ∨ i = .close ∨ ∃ n, i = .select n) → exec i s = .next t →
    SameInterrupt s t ∧ SameEnvironment s t ∧ t.data = s.data ∧ t.en = s.en ∧ t.sess = s.sess ∧
    t.tickEn = s.tickEn ∧ t.replies = s.replies ∧
    ((∃ n, i = .openClip n) → t.duty = s.duty ∧ t.trace = s.trace) ∧
    ((∀ n, i ≠ .select n) → t.openf = s.openf) ∧ (i = .close → SameCursor s t)

/-- spec/41_stream_controller.md R98, spec/43_sample_clock_pwm.md R106: one step of exec of PULL, one micro-step (log entry
25), changes nothing but `POS`, `BUSY`, `INFLIGHT`, `ISRPC` and `FAULT`; the rest of its effect (`DATA`, the `RX` event) is the
completion step's. -/
def Obligations.FrameOfPull : Prop :=
  ∀ s t : State, exec .pull s = .next t →
    t.lim = s.lim ∧ t.div = s.div ∧ t.duty = s.duty ∧ t.data = s.data ∧ t.en = s.en ∧ t.sess = s.sess ∧
    t.openf = s.openf ∧ t.guard = s.guard ∧ t.tickEn = s.tickEn ∧ t.tickPend = s.tickPend ∧ t.inIsr = s.inIsr ∧
    t.fg = s.fg ∧ t.trace = s.trace ∧ t.replies = s.replies ∧ SameEnvironment s t
end

