-- ==== Sys2Proof/Laws/Config.lean ====
section
/-! SUPPORT. What the premise on the configuration gives (spec/00_scope.md R7, R8; spec/20_memory.md R44), one lemma per
condition, so that no proof unfolds it. -/

namespace Sys2Proof

theorem Config.devices_differ (c : Config) : c.devWr ≠ c.devRd := by
  have h := c.wf
  simp only [Parameters.wellFormed, Parameters.scalarsOk, Bool.and_eq_true, bne_iff_ne] at h
  exact h.1.1.1.1

theorem Config.array_size (c : Config) : 1 ≤ c.eepromSize ∧ c.eepromSize ≤ 0x10000 := by
  have h := c.wf
  simp only [Parameters.wellFormed, Parameters.scalarsOk, Bool.and_eq_true, decide_eq_true_eq] at h
  exact ⟨h.1.1.1.2, h.1.1.2⟩

theorem Config.ticks_pos (c : Config) : 1 ≤ c.ticksPerSample := by
  have h := c.wf
  simp only [Parameters.wellFormed, Parameters.scalarsOk, Bool.and_eq_true, decide_eq_true_eq] at h
  exact h.1.2

theorem Config.clips_fit (c : Config) : clipsFit c.eepromSize c.clips = true := by
  have h := c.wf
  simp only [Parameters.wellFormed, Parameters.tableOk, Bool.and_eq_true] at h
  exact h.2.2

/-- Every entry of the table lies inside the array. -/
theorem Config.clip_in_array {c : Config} {n : Nat} {d : Clip} (h : c.clips[n]? = some d) :
    d.base.toNat < c.eepromSize ∧ d.base.toNat + d.len.toNat ≤ c.eepromSize := by
  have f := c.clips_fit
  simp only [clipsFit, Bool.and_eq_true, List.all_eq_true] at f
  simpa [Clip.inArray] using f.1 d (List.mem_of_getElem? h)

/-- So the peer loads the base of an entry as it is. -/
theorem Config.clip_base_mod {c : Config} {n : Nat} {d : Clip} (h : c.clips[n]? = some d) :
    d.base.toNat % c.eepromSize = d.base.toNat := Nat.mod_eq_of_lt (c.clip_in_array h).1

end Sys2Proof
end

