-- ==== Sys2Proof/Laws/Memory.lean ====
section
/-! SUPPORT. The laws of the peer's array: reading after provisioning, and the canonical form, which every operation
keeps (the operations are read, write and provision; the block itself never writes, R5 (e)). -/

namespace Sys2Proof.Machine

@[simp] theorem read_nil (a : Nat) : Memory.read [] a = Memory.unlisted := rfl

theorem read_cons (k : Nat) (b : Byte) (m : Memory) (a : Nat) :
    Memory.read ((k, b) :: m) a = if k = a then b else Memory.read m a := rfl

/-- Below every listed address nothing is listed. -/
theorem read_below (m : Memory) (a : Nat) (h : m.all (fun c => decide (a < c.1)) = true) :
    Memory.read m a = Memory.unlisted := by
  induction m with
  | nil => rfl
  | cons c rest ih =>
    simp only [List.all_cons, Bool.and_eq_true, decide_eq_true_eq] at h
    rw [show c = (c.1, c.2) from rfl, read_cons, if_neg (by omega), ih h.2]

theorem wf_cons (k : Nat) (b : Byte) (m : Memory) :
    Memory.wf ((k, b) :: m) = true ↔
      b ≠ Memory.unlisted ∧ m.all (fun c => decide (k < c.1)) = true ∧ Memory.wf m = true := by
  simp [Memory.wf, and_assoc]

/-- The addresses of a provisioned array are the old ones and the written one. -/
theorem all_write (p : Nat → Bool) (m : Memory) (a : Nat) (b : Byte) (ha : p a = true)
    (hm : m.all (fun c => p c.1) = true) : (Memory.write m a b).all (fun c => p c.1) = true := by
  induction m with
  | nil => unfold Memory.write; split <;> simp [ha]
  | cons c rest ih =>
    simp only [List.all_cons, Bool.and_eq_true] at hm
    unfold Memory.write
    split
    · split <;> simp only [List.all_cons, ha, hm.1, hm.2, Bool.and_self]
    · split
      · split <;> simp only [List.all_cons, ha, hm.2, Bool.and_self]
      · simp only [List.all_cons, hm.1, ih hm.2, Bool.and_self]

/-- Provisioning a byte keeps the canonical form. -/
theorem write_wf (m : Memory) (a : Nat) (b : Byte) (h : Memory.wf m = true) :
    Memory.wf (Memory.write m a b) = true := by
  induction m with
  | nil => unfold Memory.write; split <;> simp_all [Memory.wf]
  | cons c rest ih =>
    obtain ⟨k, e⟩ := c
    have hc := (wf_cons k e rest).mp h
    unfold Memory.write
    split
    · rename_i hlt
      split
      · exact h
      · rename_i hb
        refine (wf_cons _ _ _).mpr ⟨hb, ?_, h⟩
        simp only [List.all_cons, Bool.and_eq_true, decide_eq_true_eq]
        exact ⟨hlt, List.all_eq_true.mpr fun x hx => by
          have := List.all_eq_true.mp hc.2.1 x hx
          simp only [decide_eq_true_eq] at this ⊢; omega⟩
    · split
      · rename_i hk
        split
        · exact hc.2.2
        · rename_i hb; subst hk; exact (wf_cons _ _ _).mpr ⟨hb, hc.2.1, hc.2.2⟩
      · refine (wf_cons _ _ _).mpr ⟨hc.1, ?_, ih hc.2.2⟩
        exact all_write (fun x => decide (k < x)) rest a b (by simp; omega) hc.2.1

/-- Provisioning a run of bytes keeps the canonical form. -/
theorem provision_wf (bs : List Byte) (m : Memory) (a : Nat) (h : Memory.wf m = true) :
    Memory.wf (Memory.provision m a bs) = true := by
  induction bs generalizing m a with
  | nil => exact h
  | cons b rest ih => exact ih _ _ (write_wf m a b h)

/-- The byte provisioned is the byte read. -/
theorem read_write_same (m : Memory) (a : Nat) (b : Byte) (h : Memory.wf m = true) :
    Memory.read (Memory.write m a b) a = b := by
  induction m with
  | nil => unfold Memory.write; split <;> simp_all [Memory.read]
  | cons c rest ih =>
    obtain ⟨k, e⟩ := c
    have hc := (wf_cons k e rest).mp h
    unfold Memory.write
    split
    · rename_i hlt
      split
      · rename_i hb
        rw [hb]
        refine read_below _ _ (List.all_eq_true.mpr fun x hx => ?_)
        rcases List.mem_cons.mp hx with rfl | hx
        · simpa using hlt
        · have := List.all_eq_true.mp hc.2.1 x hx
          simp only [decide_eq_true_eq] at this ⊢; omega
      · simp [read_cons]
    · split
      · rename_i hk
        subst hk
        split
        · rename_i hb; rw [hb]; exact read_below _ _ hc.2.1
        · simp [read_cons]
      · rename_i hk
        rw [read_cons, if_neg (fun e => hk e.symm), ih hc.2.2]

/-- Every other byte reads as before. -/
theorem read_write_other (m : Memory) (a x : Nat) (b : Byte) (h : Memory.wf m = true) (hx : x ≠ a) :
    Memory.read (Memory.write m a b) x = Memory.read m x := by
  induction m with
  | nil => unfold Memory.write; split <;> simp [Memory.read, Ne.symm hx]
  | cons c rest ih =>
    obtain ⟨k, e⟩ := c
    have hc := (wf_cons k e rest).mp h
    unfold Memory.write
    split
    · split
      · rfl
      · rw [read_cons, if_neg (Ne.symm hx)]
    · split
      · rename_i hk
        subst hk
        split <;> simp [read_cons, Ne.symm hx]
      · rw [read_cons, read_cons, ih hc.2.2]

/-- Memory right after reset is in canonical form. -/
theorem reset_memory_wf : Memory.wf State.reset.eeprom = true := rfl

end Sys2Proof.Machine
end

