-- ==== Sys2Proof/Laws/State.lean ====
section
/-! SUPPORT. For each named update of State, what every field is afterwards: one lemma per field per update. -/

namespace Sys2Proof.Machine

@[simp] theorem emit_pos (e : Event) (s : State) : (emit e s).pos = s.pos := rfl
@[simp] theorem emit_lim (e : Event) (s : State) : (emit e s).lim = s.lim := rfl
@[simp] theorem emit_duty (e : Event) (s : State) : (emit e s).duty = s.duty := rfl
@[simp] theorem emit_data (e : Event) (s : State) : (emit e s).data = s.data := rfl
@[simp] theorem emit_en (e : Event) (s : State) : (emit e s).en = s.en := rfl
@[simp] theorem emit_busy (e : Event) (s : State) : (emit e s).busy = s.busy := rfl
@[simp] theorem emit_openf (e : Event) (s : State) : (emit e s).openf = s.openf := rfl
@[simp] theorem emit_tickEn (e : Event) (s : State) : (emit e s).tickEn = s.tickEn := rfl
@[simp] theorem emit_tickPend (e : Event) (s : State) : (emit e s).tickPend = s.tickPend := rfl
@[simp] theorem emit_inIsr (e : Event) (s : State) : (emit e s).inIsr = s.inIsr := rfl
@[simp] theorem emit_guard (e : Event) (s : State) : (emit e s).guard = s.guard := rfl
@[simp] theorem emit_div (e : Event) (s : State) : (emit e s).div = s.div := rfl
@[simp] theorem emit_fg (e : Event) (s : State) : (emit e s).fg = s.fg := rfl
@[simp] theorem emit_isrpc (e : Event) (s : State) : (emit e s).isrpc = s.isrpc := rfl
@[simp] theorem emit_inflight (e : Event) (s : State) : (emit e s).inflight = s.inflight := rfl
@[simp] theorem emit_sess (e : Event) (s : State) : (emit e s).sess = s.sess := rfl
@[simp] theorem emit_fault (e : Event) (s : State) : (emit e s).fault = s.fault := rfl
@[simp] theorem emit_trace (e : Event) (s : State) : (emit e s).trace = s.trace ++ [e] := rfl
@[simp] theorem emit_replies (e : Event) (s : State) : (emit e s).replies = s.replies := rfl
@[simp] theorem emit_eeprom (e : Event) (s : State) : (emit e s).eeprom = s.eeprom := rfl
@[simp] theorem emit_ptr (e : Event) (s : State) : (emit e s).ptr = s.ptr := rfl
@[simp] theorem emit_wcnt (e : Event) (s : State) : (emit e s).wcnt = s.wcnt := rfl
@[simp] theorem emit_ah (e : Event) (s : State) : (emit e s).ah = s.ah := rfl
@[simp] theorem emit_responsive (e : Event) (s : State) : (emit e s).responsive = s.responsive := rfl
@[simp] theorem emit_draws (e : Event) (s : State) : (emit e s).draws = s.draws := rfl
@[simp] theorem emit_script (e : Event) (s : State) : (emit e s).script = s.script := rfl
@[simp] theorem emit_cfg (e : Event) (s : State) : (emit e s).cfg = s.cfg := rfl

@[simp] theorem writeDuty_pos (v : Byte) (s : State) : (writeDuty v s).pos = s.pos := rfl
@[simp] theorem writeDuty_lim (v : Byte) (s : State) : (writeDuty v s).lim = s.lim := rfl
@[simp] theorem writeDuty_duty (v : Byte) (s : State) : (writeDuty v s).duty = v := rfl
@[simp] theorem writeDuty_data (v : Byte) (s : State) : (writeDuty v s).data = s.data := rfl
@[simp] theorem writeDuty_en (v : Byte) (s : State) : (writeDuty v s).en = s.en := rfl
@[simp] theorem writeDuty_busy (v : Byte) (s : State) : (writeDuty v s).busy = s.busy := rfl
@[simp] theorem writeDuty_openf (v : Byte) (s : State) : (writeDuty v s).openf = s.openf := rfl
@[simp] theorem writeDuty_tickEn (v : Byte) (s : State) : (writeDuty v s).tickEn = s.tickEn := rfl
@[simp] theorem writeDuty_tickPend (v : Byte) (s : State) : (writeDuty v s).tickPend = s.tickPend := rfl
@[simp] theorem writeDuty_inIsr (v : Byte) (s : State) : (writeDuty v s).inIsr = s.inIsr := rfl
@[simp] theorem writeDuty_guard (v : Byte) (s : State) : (writeDuty v s).guard = s.guard := rfl
@[simp] theorem writeDuty_div (v : Byte) (s : State) : (writeDuty v s).div = s.div := rfl
@[simp] theorem writeDuty_fg (v : Byte) (s : State) : (writeDuty v s).fg = s.fg := rfl
@[simp] theorem writeDuty_isrpc (v : Byte) (s : State) : (writeDuty v s).isrpc = s.isrpc := rfl
@[simp] theorem writeDuty_inflight (v : Byte) (s : State) : (writeDuty v s).inflight = s.inflight := rfl
@[simp] theorem writeDuty_sess (v : Byte) (s : State) : (writeDuty v s).sess = s.sess := rfl
@[simp] theorem writeDuty_fault (v : Byte) (s : State) : (writeDuty v s).fault = s.fault := rfl
@[simp] theorem writeDuty_trace (v : Byte) (s : State) : (writeDuty v s).trace = s.trace ++ [.duty v] := rfl
@[simp] theorem writeDuty_replies (v : Byte) (s : State) : (writeDuty v s).replies = s.replies := rfl
@[simp] theorem writeDuty_eeprom (v : Byte) (s : State) : (writeDuty v s).eeprom = s.eeprom := rfl
@[simp] theorem writeDuty_ptr (v : Byte) (s : State) : (writeDuty v s).ptr = s.ptr := rfl
@[simp] theorem writeDuty_wcnt (v : Byte) (s : State) : (writeDuty v s).wcnt = s.wcnt := rfl
@[simp] theorem writeDuty_ah (v : Byte) (s : State) : (writeDuty v s).ah = s.ah := rfl
@[simp] theorem writeDuty_responsive (v : Byte) (s : State) : (writeDuty v s).responsive = s.responsive := rfl
@[simp] theorem writeDuty_draws (v : Byte) (s : State) : (writeDuty v s).draws = s.draws := rfl
@[simp] theorem writeDuty_script (v : Byte) (s : State) : (writeDuty v s).script = s.script := rfl
@[simp] theorem writeDuty_cfg (v : Byte) (s : State) : (writeDuty v s).cfg = s.cfg := rfl

@[simp] theorem raise_pos (f : Fault) (s : State) : (raise f s).pos = s.pos := rfl
@[simp] theorem raise_lim (f : Fault) (s : State) : (raise f s).lim = s.lim := rfl
@[simp] theorem raise_duty (f : Fault) (s : State) : (raise f s).duty = s.duty := rfl
@[simp] theorem raise_data (f : Fault) (s : State) : (raise f s).data = s.data := rfl
@[simp] theorem raise_en (f : Fault) (s : State) : (raise f s).en = s.en := rfl
@[simp] theorem raise_busy (f : Fault) (s : State) : (raise f s).busy = s.busy := rfl
@[simp] theorem raise_openf (f : Fault) (s : State) : (raise f s).openf = s.openf := rfl
@[simp] theorem raise_tickEn (f : Fault) (s : State) : (raise f s).tickEn = s.tickEn := rfl
@[simp] theorem raise_tickPend (f : Fault) (s : State) : (raise f s).tickPend = s.tickPend := rfl
@[simp] theorem raise_inIsr (f : Fault) (s : State) : (raise f s).inIsr = s.inIsr := rfl
@[simp] theorem raise_guard (f : Fault) (s : State) : (raise f s).guard = s.guard := rfl
@[simp] theorem raise_div (f : Fault) (s : State) : (raise f s).div = s.div := rfl
@[simp] theorem raise_fg (f : Fault) (s : State) : (raise f s).fg = s.fg := rfl
@[simp] theorem raise_isrpc (f : Fault) (s : State) : (raise f s).isrpc = s.isrpc := rfl
@[simp] theorem raise_inflight (f : Fault) (s : State) : (raise f s).inflight = s.inflight := rfl
@[simp] theorem raise_sess (f : Fault) (s : State) : (raise f s).sess = s.sess := rfl
@[simp] theorem raise_fault (f : Fault) (s : State) : (raise f s).fault = some f := rfl
@[simp] theorem raise_trace (f : Fault) (s : State) : (raise f s).trace = s.trace := rfl
@[simp] theorem raise_replies (f : Fault) (s : State) : (raise f s).replies = s.replies := rfl
@[simp] theorem raise_eeprom (f : Fault) (s : State) : (raise f s).eeprom = s.eeprom := rfl
@[simp] theorem raise_ptr (f : Fault) (s : State) : (raise f s).ptr = s.ptr := rfl
@[simp] theorem raise_wcnt (f : Fault) (s : State) : (raise f s).wcnt = s.wcnt := rfl
@[simp] theorem raise_ah (f : Fault) (s : State) : (raise f s).ah = s.ah := rfl
@[simp] theorem raise_responsive (f : Fault) (s : State) : (raise f s).responsive = s.responsive := rfl
@[simp] theorem raise_draws (f : Fault) (s : State) : (raise f s).draws = s.draws := rfl
@[simp] theorem raise_script (f : Fault) (s : State) : (raise f s).script = s.script := rfl
@[simp] theorem raise_cfg (f : Fault) (s : State) : (raise f s).cfg = s.cfg := rfl

@[simp] theorem settle_pos (n : Sess) (s : State) : (settle n s).pos = s.pos := rfl
@[simp] theorem settle_lim (n : Sess) (s : State) : (settle n s).lim = s.lim := rfl
@[simp] theorem settle_duty (n : Sess) (s : State) : (settle n s).duty = s.duty := rfl
@[simp] theorem settle_data (n : Sess) (s : State) : (settle n s).data = s.data := rfl
@[simp] theorem settle_en (n : Sess) (s : State) : (settle n s).en = s.en := rfl
@[simp] theorem settle_busy (n : Sess) (s : State) : (settle n s).busy = false := rfl
@[simp] theorem settle_openf (n : Sess) (s : State) : (settle n s).openf = s.openf := rfl
@[simp] theorem settle_tickEn (n : Sess) (s : State) : (settle n s).tickEn = s.tickEn := rfl
@[simp] theorem settle_tickPend (n : Sess) (s : State) : (settle n s).tickPend = s.tickPend := rfl
@[simp] theorem settle_inIsr (n : Sess) (s : State) : (settle n s).inIsr = s.inIsr := rfl
@[simp] theorem settle_guard (n : Sess) (s : State) : (settle n s).guard = s.guard := rfl
@[simp] theorem settle_div (n : Sess) (s : State) : (settle n s).div = s.div := rfl
@[simp] theorem settle_fg (n : Sess) (s : State) : (settle n s).fg = s.fg := rfl
@[simp] theorem settle_isrpc (n : Sess) (s : State) : (settle n s).isrpc = s.isrpc := rfl
@[simp] theorem settle_inflight (n : Sess) (s : State) : (settle n s).inflight = none := rfl
@[simp] theorem settle_sess (n : Sess) (s : State) : (settle n s).sess = n := rfl
@[simp] theorem settle_fault (n : Sess) (s : State) : (settle n s).fault = s.fault := rfl
@[simp] theorem settle_trace (n : Sess) (s : State) : (settle n s).trace = s.trace := rfl
@[simp] theorem settle_replies (n : Sess) (s : State) : (settle n s).replies = s.replies := rfl
@[simp] theorem settle_eeprom (n : Sess) (s : State) : (settle n s).eeprom = s.eeprom := rfl
@[simp] theorem settle_ptr (n : Sess) (s : State) : (settle n s).ptr = s.ptr := rfl
@[simp] theorem settle_wcnt (n : Sess) (s : State) : (settle n s).wcnt = s.wcnt := rfl
@[simp] theorem settle_ah (n : Sess) (s : State) : (settle n s).ah = s.ah := rfl
@[simp] theorem settle_responsive (n : Sess) (s : State) : (settle n s).responsive = s.responsive := rfl
@[simp] theorem settle_draws (n : Sess) (s : State) : (settle n s).draws = s.draws := rfl
@[simp] theorem settle_script (n : Sess) (s : State) : (settle n s).script = s.script := rfl
@[simp] theorem settle_cfg (n : Sess) (s : State) : (settle n s).cfg = s.cfg := rfl

@[simp] theorem enterHandler_pos (s : State) : (enterHandler s).pos = s.pos := rfl
@[simp] theorem enterHandler_lim (s : State) : (enterHandler s).lim = s.lim := rfl
@[simp] theorem enterHandler_duty (s : State) : (enterHandler s).duty = s.duty := rfl
@[simp] theorem enterHandler_data (s : State) : (enterHandler s).data = s.data := rfl
@[simp] theorem enterHandler_en (s : State) : (enterHandler s).en = s.en := rfl
@[simp] theorem enterHandler_busy (s : State) : (enterHandler s).busy = s.busy := rfl
@[simp] theorem enterHandler_openf (s : State) : (enterHandler s).openf = s.openf := rfl
@[simp] theorem enterHandler_tickEn (s : State) : (enterHandler s).tickEn = s.tickEn := rfl
@[simp] theorem enterHandler_tickPend (s : State) : (enterHandler s).tickPend = false := rfl
@[simp] theorem enterHandler_inIsr (s : State) : (enterHandler s).inIsr = true := rfl
@[simp] theorem enterHandler_guard (s : State) : (enterHandler s).guard = s.guard := rfl
@[simp] theorem enterHandler_div (s : State) : (enterHandler s).div = s.div := rfl
@[simp] theorem enterHandler_fg (s : State) : (enterHandler s).fg = s.fg := rfl
@[simp] theorem enterHandler_isrpc (s : State) : (enterHandler s).isrpc = 0 := rfl
@[simp] theorem enterHandler_inflight (s : State) : (enterHandler s).inflight = s.inflight := rfl
@[simp] theorem enterHandler_sess (s : State) : (enterHandler s).sess = s.sess := rfl
@[simp] theorem enterHandler_fault (s : State) : (enterHandler s).fault = s.fault := rfl
@[simp] theorem enterHandler_trace (s : State) : (enterHandler s).trace = s.trace := rfl
@[simp] theorem enterHandler_replies (s : State) : (enterHandler s).replies = s.replies := rfl
@[simp] theorem enterHandler_eeprom (s : State) : (enterHandler s).eeprom = s.eeprom := rfl
@[simp] theorem enterHandler_ptr (s : State) : (enterHandler s).ptr = s.ptr := rfl
@[simp] theorem enterHandler_wcnt (s : State) : (enterHandler s).wcnt = s.wcnt := rfl
@[simp] theorem enterHandler_ah (s : State) : (enterHandler s).ah = s.ah := rfl
@[simp] theorem enterHandler_responsive (s : State) : (enterHandler s).responsive = s.responsive := rfl
@[simp] theorem enterHandler_draws (s : State) : (enterHandler s).draws = s.draws := rfl
@[simp] theorem enterHandler_script (s : State) : (enterHandler s).script = s.script := rfl
@[simp] theorem enterHandler_cfg (s : State) : (enterHandler s).cfg = s.cfg := rfl

@[simp] theorem countTick_pos (s : State) : (countTick s).pos = s.pos := rfl
@[simp] theorem countTick_lim (s : State) : (countTick s).lim = s.lim := rfl
@[simp] theorem countTick_duty (s : State) : (countTick s).duty = s.duty := rfl
@[simp] theorem countTick_data (s : State) : (countTick s).data = s.data := rfl
@[simp] theorem countTick_en (s : State) : (countTick s).en = s.en := rfl
@[simp] theorem countTick_busy (s : State) : (countTick s).busy = s.busy := rfl
@[simp] theorem countTick_openf (s : State) : (countTick s).openf = s.openf := rfl
@[simp] theorem countTick_tickEn (s : State) : (countTick s).tickEn = s.tickEn := rfl
@[simp] theorem countTick_tickPend (s : State) : (countTick s).tickPend = s.tickPend := rfl
@[simp] theorem countTick_inIsr (s : State) : (countTick s).inIsr = s.inIsr := rfl
@[simp] theorem countTick_guard (s : State) : (countTick s).guard = s.guard := rfl
@[simp] theorem countTick_div (s : State) : (countTick s).div = (s.div + 1) % s.cfg.ticksPerSample := rfl
@[simp] theorem countTick_fg (s : State) : (countTick s).fg = s.fg := rfl
@[simp] theorem countTick_isrpc (s : State) : (countTick s).isrpc = s.isrpc := rfl
@[simp] theorem countTick_inflight (s : State) : (countTick s).inflight = s.inflight := rfl
@[simp] theorem countTick_sess (s : State) : (countTick s).sess = s.sess := rfl
@[simp] theorem countTick_fault (s : State) : (countTick s).fault = s.fault := rfl
@[simp] theorem countTick_trace (s : State) : (countTick s).trace = s.trace := rfl
@[simp] theorem countTick_replies (s : State) : (countTick s).replies = s.replies := rfl
@[simp] theorem countTick_eeprom (s : State) : (countTick s).eeprom = s.eeprom := rfl
@[simp] theorem countTick_ptr (s : State) : (countTick s).ptr = s.ptr := rfl
@[simp] theorem countTick_wcnt (s : State) : (countTick s).wcnt = s.wcnt := rfl
@[simp] theorem countTick_ah (s : State) : (countTick s).ah = s.ah := rfl
@[simp] theorem countTick_responsive (s : State) : (countTick s).responsive = s.responsive := rfl
@[simp] theorem countTick_draws (s : State) : (countTick s).draws = s.draws := rfl
@[simp] theorem countTick_script (s : State) : (countTick s).script = s.script := rfl
@[simp] theorem countTick_cfg (s : State) : (countTick s).cfg = s.cfg := rfl

@[simp] theorem fireTick_pos (s : State) : (fireTick s).pos = s.pos := by
  unfold fireTick; split <;> rfl
@[simp] theorem fireTick_lim (s : State) : (fireTick s).lim = s.lim := by
  unfold fireTick; split <;> rfl
@[simp] theorem fireTick_duty (s : State) : (fireTick s).duty = s.duty := by
  unfold fireTick; split <;> rfl
@[simp] theorem fireTick_data (s : State) : (fireTick s).data = s.data := by
  unfold fireTick; split <;> rfl
@[simp] theorem fireTick_en (s : State) : (fireTick s).en = s.en := by
  unfold fireTick; split <;> rfl
@[simp] theorem fireTick_busy (s : State) : (fireTick s).busy = s.busy := by
  unfold fireTick; split <;> rfl
@[simp] theorem fireTick_openf (s : State) : (fireTick s).openf = s.openf := by
  unfold fireTick; split <;> rfl
@[simp] theorem fireTick_tickEn (s : State) : (fireTick s).tickEn = s.tickEn := by
  unfold fireTick; split <;> rfl
@[simp] theorem fireTick_tickPend (s : State) : (fireTick s).tickPend = (s.tickPend || (s.tickEn && !s.inIsr)) := by
  cases h : (s.tickEn && !s.inIsr) <;> simp [fireTick, h]
@[simp] theorem fireTick_inIsr (s : State) : (fireTick s).inIsr = s.inIsr := by
  unfold fireTick; split <;> rfl
@[simp] theorem fireTick_guard (s : State) : (fireTick s).guard = s.guard := by
  unfold fireTick; split <;> rfl
@[simp] theorem fireTick_div (s : State) : (fireTick s).div = s.div := by
  unfold fireTick; split <;> rfl
@[simp] theorem fireTick_fg (s : State) : (fireTick s).fg = s.fg := by
  unfold fireTick; split <;> rfl
@[simp] theorem fireTick_isrpc (s : State) : (fireTick s).isrpc = s.isrpc := by
  unfold fireTick; split <;> rfl
@[simp] theorem fireTick_inflight (s : State) : (fireTick s).inflight = s.inflight := by
  unfold fireTick; split <;> rfl
@[simp] theorem fireTick_sess (s : State) : (fireTick s).sess = s.sess := by
  unfold fireTick; split <;> rfl
@[simp] theorem fireTick_fault (s : State) : (fireTick s).fault = s.fault := by
  unfold fireTick; split <;> rfl
@[simp] theorem fireTick_trace (s : State) : (fireTick s).trace = s.trace := by
  unfold fireTick; split <;> rfl
@[simp] theorem fireTick_replies (s : State) : (fireTick s).replies = s.replies := by
  unfold fireTick; split <;> rfl
@[simp] theorem fireTick_eeprom (s : State) : (fireTick s).eeprom = s.eeprom := by
  unfold fireTick; split <;> rfl
@[simp] theorem fireTick_ptr (s : State) : (fireTick s).ptr = s.ptr := by
  unfold fireTick; split <;> rfl
@[simp] theorem fireTick_wcnt (s : State) : (fireTick s).wcnt = s.wcnt := by
  unfold fireTick; split <;> rfl
@[simp] theorem fireTick_ah (s : State) : (fireTick s).ah = s.ah := by
  unfold fireTick; split <;> rfl
@[simp] theorem fireTick_responsive (s : State) : (fireTick s).responsive = s.responsive := by
  unfold fireTick; split <;> rfl
@[simp] theorem fireTick_draws (s : State) : (fireTick s).draws = s.draws := by
  unfold fireTick; split <;> rfl
@[simp] theorem fireTick_script (s : State) : (fireTick s).script = s.script := by
  unfold fireTick; split <;> rfl
@[simp] theorem fireTick_cfg (s : State) : (fireTick s).cfg = s.cfg := by
  unfold fireTick; split <;> rfl

@[simp] theorem peerSeesStart_pos (s : State) : (peerSeesStart s).pos = s.pos := by
  unfold peerSeesStart; cases s.cfg.oracle <;> rfl
@[simp] theorem peerSeesStart_lim (s : State) : (peerSeesStart s).lim = s.lim := by
  unfold peerSeesStart; cases s.cfg.oracle <;> rfl
@[simp] theorem peerSeesStart_duty (s : State) : (peerSeesStart s).duty = s.duty := by
  unfold peerSeesStart; cases s.cfg.oracle <;> rfl
@[simp] theorem peerSeesStart_data (s : State) : (peerSeesStart s).data = s.data := by
  unfold peerSeesStart; cases s.cfg.oracle <;> rfl
@[simp] theorem peerSeesStart_en (s : State) : (peerSeesStart s).en = s.en := by
  unfold peerSeesStart; cases s.cfg.oracle <;> rfl
@[simp] theorem peerSeesStart_busy (s : State) : (peerSeesStart s).busy = s.busy := by
  unfold peerSeesStart; cases s.cfg.oracle <;> rfl
@[simp] theorem peerSeesStart_openf (s : State) : (peerSeesStart s).openf = s.openf := by
  unfold peerSeesStart; cases s.cfg.oracle <;> rfl
@[simp] theorem peerSeesStart_tickEn (s : State) : (peerSeesStart s).tickEn = s.tickEn := by
  unfold peerSeesStart; cases s.cfg.oracle <;> rfl
@[simp] theorem peerSeesStart_tickPend (s : State) : (peerSeesStart s).tickPend = s.tickPend := by
  unfold peerSeesStart; cases s.cfg.oracle <;> rfl
@[simp] theorem peerSeesStart_inIsr (s : State) : (peerSeesStart s).inIsr = s.inIsr := by
  unfold peerSeesStart; cases s.cfg.oracle <;> rfl
@[simp] theorem peerSeesStart_guard (s : State) : (peerSeesStart s).guard = s.guard := by
  unfold peerSeesStart; cases s.cfg.oracle <;> rfl
@[simp] theorem peerSeesStart_div (s : State) : (peerSeesStart s).div = s.div := by
  unfold peerSeesStart; cases s.cfg.oracle <;> rfl
@[simp] theorem peerSeesStart_fg (s : State) : (peerSeesStart s).fg = s.fg := by
  unfold peerSeesStart; cases s.cfg.oracle <;> rfl
@[simp] theorem peerSeesStart_isrpc (s : State) : (peerSeesStart s).isrpc = s.isrpc := by
  unfold peerSeesStart; cases s.cfg.oracle <;> rfl
@[simp] theorem peerSeesStart_inflight (s : State) : (peerSeesStart s).inflight = s.inflight := by
  unfold peerSeesStart; cases s.cfg.oracle <;> rfl
@[simp] theorem peerSeesStart_sess (s : State) : (peerSeesStart s).sess = s.sess := by
  unfold peerSeesStart; cases s.cfg.oracle <;> rfl
@[simp] theorem peerSeesStart_fault (s : State) : (peerSeesStart s).fault = s.fault := by
  unfold peerSeesStart; cases s.cfg.oracle <;> rfl
@[simp] theorem peerSeesStart_trace (s : State) : (peerSeesStart s).trace = s.trace := by
  unfold peerSeesStart; cases s.cfg.oracle <;> rfl
@[simp] theorem peerSeesStart_replies (s : State) : (peerSeesStart s).replies = s.replies := by
  unfold peerSeesStart; cases s.cfg.oracle <;> rfl
@[simp] theorem peerSeesStart_eeprom (s : State) : (peerSeesStart s).eeprom = s.eeprom := by
  unfold peerSeesStart; cases s.cfg.oracle <;> rfl
@[simp] theorem peerSeesStart_ptr (s : State) : (peerSeesStart s).ptr = s.ptr := by
  unfold peerSeesStart; cases s.cfg.oracle <;> rfl
@[simp] theorem peerSeesStart_wcnt (s : State) : (peerSeesStart s).wcnt = (match s.cfg.oracle with | .reference => 0 | .unconstrained => s.wcnt) := by
  unfold peerSeesStart; cases s.cfg.oracle <;> rfl
@[simp] theorem peerSeesStart_ah (s : State) : (peerSeesStart s).ah = s.ah := by
  unfold peerSeesStart; cases s.cfg.oracle <;> rfl
@[simp] theorem peerSeesStart_responsive (s : State) : (peerSeesStart s).responsive = s.responsive := by
  unfold peerSeesStart; cases s.cfg.oracle <;> rfl
@[simp] theorem peerSeesStart_draws (s : State) : (peerSeesStart s).draws = s.draws := by
  unfold peerSeesStart; cases s.cfg.oracle <;> rfl
@[simp] theorem peerSeesStart_script (s : State) : (peerSeesStart s).script = s.script := by
  unfold peerSeesStart; cases s.cfg.oracle <;> rfl
@[simp] theorem peerSeesStart_cfg (s : State) : (peerSeesStart s).cfg = s.cfg := by
  unfold peerSeesStart; cases s.cfg.oracle <;> rfl

end Sys2Proof.Machine
end

