-- ==== Sys2Proof/Laws/Ops.lean ====
section
/-! SUPPORT. One lemma per shared operation, saying once everything it can do: the micro-steps, running one of them in
either context, a command in the context in which it stands, the port, and the agents' moves. -/

namespace Sys2Proof.Machine

/-! ### Micro-steps -/

/-- `issue` raises one of the two faults, or hands over an admitted primitive (R76). -/
theorem issue_cases (p : Prim) (s : State) :
    (s.busy = true ∧ issue p s = (raise (.framingFault p) s, .stay)) ∨
    (s.busy = false ∧ nextSess s.cfg s.sess p = none ∧
      issue p s = (raise (.protocolFault s.sess (.prim p)) s, .stay)) ∨
    (s.busy = false ∧ nextSess s.cfg s.sess p ≠ none ∧
      issue p s = ({ s with inflight := some p, busy := true }, .advance)) := by
  unfold issue admits
  cases s.busy <;> cases nextSess s.cfg s.sess p <;> simp

/-- `await` spins while the engine is busy and then only advances (R77). -/
theorem await_cases (s : State) :
    (s.busy = true ∧ await s = (s, .stay)) ∨ (s.busy = false ∧ await s = (s, .advance)) := by
  unfold await
  cases s.busy <;> simp

/-! ### Running one micro-step -/

/-- What one foreground micro-step can do to the state and to `FG` (R23). -/
theorem foregroundStep_cases {prog : List Micro} {w : Word} {k : Nat} {s t : State}
    (h : foregroundStep prog w k s = .next t) :
    ∃ m, prog[k]? = some m ∧
      (((m s).2 = .advance ∧
          t = { (m s).1 with fg := if k + 1 < prog.length then .run w (k + 1) else .idle }) ∨
        ((m s).2 = .stay ∧ t = (m s).1) ∨
        ∃ j, (m s).2 = .skipTo j ∧ t = { (m s).1 with fg := .run w j }) := by
  unfold foregroundStep at h
  split at h
  · cases h
  · rename_i m hm
    refine ⟨m, hm, ?_⟩
    split at h <;> rename_i heq <;> simp only [heq] at * <;> try cases h
    all_goals simp

/-- What one micro-step of the handler can do to the state and to `ISRPC` (R23). -/
theorem interruptStep_cases {m : Option Micro} {s t : State} (h : interruptStep m s = .next t) :
    ∃ f, m = some f ∧
      (((f s).2 = .advance ∧ t = { (f s).1 with isrpc := s.isrpc + 1 }) ∨
        ((f s).2 = .stay ∧ t = (f s).1) ∨
        ∃ j, (f s).2 = .skipTo j ∧ t = { (f s).1 with isrpc := j }) := by
  unfold interruptStep at h
  split at h
  · cases h
  · rename_i f
    refine ⟨f, rfl, ?_⟩
    split at h <;> rename_i heq <;> simp only [heq] at * <;> try cases h
    all_goals simp

/-! ### A command in its context -/

/-- While the handler runs the foreground does not step (R30). -/
theorem command_in_handler {i : Instr} {prog : List Micro} {s : State} (h : s.inIsr = true) :
    command i prog s = .next s := by
  simp [command, h]

/-- At the free port a command is accepted or dropped (R61). -/
theorem command_at_port {i : Instr} {prog : List Micro} {s : State} (h : s.inIsr = false) (hf : s.fg = .idle) :
    command i prog s = .next (accept i s) := by
  simp [command, h, hf]

/-- In the foreground it takes its next micro-step (R22). -/
theorem command_running {i : Instr} {prog : List Micro} {w : Word} {k : Nat} {s : State}
    (h : s.inIsr = false) (hf : s.fg = .run w k) : command i prog s = foregroundStep prog w k s := by
  simp [command, h, hf]

/-- A word at the port is dropped, or the port is taken by it (R61, R67). -/
theorem accept_cases (i : Instr) (s : State) :
    ((∃ r, portCheck i s = some r) ∧ accept i s = s) ∨
      (portCheck i s = none ∧ accept i s = { s with fg := .run (encode i) 0 }) := by
  unfold accept
  cases portCheck i s <;> simp

/-- What the port has checked of an accepted command (R67). -/
theorem portCheck_none {i : Instr} {s : State} (h : portCheck i s = none) :
    i ≠ .pull ∧ (needsEngine i = true → s.en = true) ∧ selectorInTable s.cfg i = true ∧
      (i = .close → s.openf = true) := by
  unfold portCheck at h
  split at h; · cases h
  split at h; · cases h
  split at h; · cases h
  split at h; · cases h
  simp_all

/-- The micro-program of a command in the foreground; PULL has none (R98). -/
def program : Instr → List Micro
  | .enable => enableProgram
  | .disable => [deconfigure]
  | .start => primitiveProgram .start
  | .rstart => primitiveProgram .rstart
  | .stop => primitiveProgram .stop
  | .send v => primitiveProgram (.send v)
  | .read k => readProgram k
  | .openClip n => openProgram n
  | .close => closeProgram
  | .pull => []
  | .select n => selectProgram n
  | .tickctl e => tickctlProgram e

theorem program_length (i : Instr) : (program i).length = programLength i := by
  cases i <;> rfl

/-- Outside the handler every command is its micro-program behind the port. -/
theorem exec_foreground (i : Instr) {s : State} (h : s.inIsr = false) :
    exec i s = command i (program i) s := by
  cases i <;> first | rfl | simp [exec, execPull, program, h]

/-- Inside the handler every command but PULL waits. -/
theorem exec_in_handler {i : Instr} {s : State} (h : s.inIsr = true) (hp : i ≠ .pull) : exec i s = .next s := by
  cases i <;> first | exact absurd rfl hp | exact command_in_handler h

/-- Inside the handler PULL is the handler's micro-steps 1 to 4 (R98, R107). -/
theorem exec_pull_in_handler {s : State} (h : s.inIsr = true) (h1 : 1 ≤ s.isrpc) (h4 : s.isrpc ≤ 4) :
    exec .pull s = handlerStep s := by
  obtain h | h | h | h : s.isrpc = 1 ∨ s.isrpc = 2 ∨ s.isrpc = 3 ∨ s.isrpc = 4 := by omega
  all_goals simp [exec, execPull, handlerStep, handlerProgram, pullBody, *]

/-! ### The agents' moves -/

/-- The sequencer's move, by context (R127, R128). -/
theorem sequencerMove_cases (s : State) :
    (s.inIsr = true ∧ sequencerMove s = handlerStep s) ∨
    (s.inIsr = false ∧ entryEnabled s = true ∧ sequencerMove s = .next (enterHandler s)) ∨
    (s.inIsr = false ∧ entryEnabled s = false ∧ s.fg = .idle ∧ sequencerMove s = .next s) ∨
    (s.inIsr = false ∧ entryEnabled s = false ∧
      ∃ w k i, s.fg = .run w k ∧ decodeWord w = .ok i ∧ sequencerMove s = exec i s) ∨
    (s.inIsr = false ∧ entryEnabled s = false ∧
      ∃ w k, s.fg = .run w k ∧ (∀ i, decodeWord w ≠ .ok i) ∧ sequencerMove s = .fault .badPosition) := by
  unfold sequencerMove
  cases s.inIsr <;> cases entryEnabled s <;> simp
  cases s.fg with
  | idle => simp
  | run w k => cases h : decodeWord w <;> simp [h]

/-- Whose move a step is, of an unfaulted machine (R13): the host's, the clock's, the bus's, power, or the block's. -/
theorem step_cases {s t : State} (h : step s = .next t) :
    (∃ rest, s.script = .powerOn :: rest ∧ t = powerCycle rest s) ∨
    (s.fault = none ∧
      ((∃ op rest, s.script = .host op :: rest ∧ hostReady op s = true ∧
          hostMove op { s with script := rest } = .next t) ∨
        (∃ rest, s.script = .clock :: rest ∧ t = fireTick { s with script := rest }) ∨
        (∃ r rest, s.script = .bus r :: rest ∧ t = { s with responsive := r, script := rest }) ∨
        (∃ rest, s.script = .engine :: rest ∧ completionEnabled s = false ∧ t = { s with script := rest }) ∨
        ∃ sc, (sc = s.script ∨ ∃ turn, s.script = turn :: sc) ∧
          ((completionEnabled s = true ∧ complete { s with script := sc } = .next t) ∨
            sequencerMove { s with script := sc } = .next t))) := by
  have block : ∀ u, blockMove u = .next t →
      (completionEnabled u = true ∧ complete u = .next t) ∨ sequencerMove u = .next t := by
    intro u hu
    unfold blockMove at hu
    split at hu <;> simp_all
  unfold step agentStep at h
  split at h
  · rename_i hf
    unfold scriptMove at h
    split at h
    · exact .inr ⟨hf, .inr <| .inr <| .inr <| .inr ⟨s.script, .inl rfl, block s h⟩⟩
    · rename_i op rest hs
      split at h
      · rename_i hr
        exact .inr ⟨hf, .inl ⟨op, rest, hs, hr, h⟩⟩
      · exact .inr ⟨hf, .inr <| .inr <| .inr <| .inr ⟨s.script, .inl rfl, block s h⟩⟩
    · rename_i rest hs
      cases h
      exact .inr ⟨hf, .inr <| .inl ⟨rest, hs, rfl⟩⟩
    · rename_i r rest hs
      cases h
      exact .inr ⟨hf, .inr <| .inr <| .inl ⟨r, rest, hs, rfl⟩⟩
    · rename_i rest hs
      unfold engineMove at h
      split at h
      · rename_i hc
        exact .inr ⟨hf, .inr <| .inr <| .inr <| .inr ⟨rest, .inr ⟨_, hs⟩, .inl ⟨hc, h⟩⟩⟩
      · rename_i hc
        cases h
        exact .inr ⟨hf, .inr <| .inr <| .inr <| .inl ⟨rest, hs, by simpa [completionEnabled] using hc, rfl⟩⟩
    · rename_i rest hs
      exact .inr ⟨hf, .inr <| .inr <| .inr <| .inr ⟨rest, .inr ⟨_, hs⟩, .inr h⟩⟩
    · rename_i rest hs
      cases h
      exact .inl ⟨rest, hs, rfl⟩
  · rename_i rest hf hs
    cases h
    exact .inl ⟨rest, hs, rfl⟩
  · cases h

end Sys2Proof.Machine
end

