-- ==== Sys2Proof/Laws/PerInstr.lean ====
section
/-! SUPPORT. One statement per command about its word: it lies in its row of the opcode table (spec/30_encoding.md R64). -/

namespace Sys2Proof.Laws.TableRow

/-- The mask of a command's row, as the table of R64 prints it. -/
def rowMask : Instr → Word
  | .send _ => 0xFF00#16
  | .read _ => 0xFFFE#16
  | .openClip _ => 0xFF00#16
  | .select _ => 0xFF00#16
  | .tickctl _ => 0xFFFE#16
  | _ => 0xFFFF#16

/-- The match of a command's row, as the table of R64 prints it. -/
def rowMatch : Instr → Word
  | .enable => 0x0100#16
  | .disable => 0x0200#16
  | .start => 0x0300#16
  | .rstart => 0x0400#16
  | .stop => 0x0500#16
  | .send _ => 0x0600#16
  | .read _ => 0x0700#16
  | .openClip _ => 0x0800#16
  | .close => 0x0900#16
  | .pull => 0x0A00#16
  | .select _ => 0x0B00#16
  | .tickctl _ => 0x0C00#16

/-- The word of a command selects its own row: `w & mask = match` (R64). -/
def Statement (i : Instr) : Prop := encode i &&& rowMask i = rowMatch i

theorem enable : Statement .enable := by unfold Statement; decide
theorem disable : Statement .disable := by unfold Statement; decide
theorem start : Statement .start := by unfold Statement; decide
theorem rstart : Statement .rstart := by unfold Statement; decide
theorem stop : Statement .stop := by unfold Statement; decide
theorem send (v : Byte) : Statement (.send v) := by revert v; unfold Statement; decide +kernel
theorem read (k : Ack) : Statement (.read k) := by cases k <;> unfold Statement <;> decide
theorem openClip (n : Byte) : Statement (.openClip n) := by revert n; unfold Statement; decide +kernel
theorem close : Statement .close := by unfold Statement; decide
theorem pull : Statement .pull := by unfold Statement; decide
theorem select (n : Byte) : Statement (.select n) := by revert n; unfold Statement; decide +kernel
theorem tickctl (e : Bool) : Statement (.tickctl e) := by cases e <;> unfold Statement <;> decide

end Sys2Proof.Laws.TableRow
end

