-- ==== Sys2Proof/Laws/Step.lean ====
section
/-! SUPPORT. Once for each agent, everything its move can do: the bus engine's completion, a micro-step of the
foreground's micro-program, a micro-step of the handler. -/

namespace Sys2Proof.Machine

/-! ### The bus engine -/

/-- Every condition leads to one session (R79). -/
theorem nextSess_condition {cfg : Config} {x m : Sess} :
    (nextSess cfg x .start = some m → .s1 = m) ∧ (nextSess cfg x .rstart = some m → .s1 = m) ∧
      (nextSess cfg x .stop = some m → .s0 = m) := by
  cases x <;> simp [nextSess]

/-- A completion raises `ProtocolFault` if what is in flight is not admitted; else it moves the session as the grammar says,
emits one event and frees the engine (R78). -/
theorem complete_cases {s t : State} (h : complete s = .next t) :
    ∃ p, s.inflight = some p ∧
      ((nextSess s.cfg s.sess p = none ∧ t = raise (.protocolFault s.sess (.prim p)) s) ∨
        ∃ n e d q c a r,
          t = { s with sess := n, inflight := none, busy := false, trace := s.trace ++ [e], data := d, ptr := q,
                       wcnt := c, ah := a, draws := r } ∧
          (∀ m, nextSess s.cfg s.sess p = some m → n = m) ∧ (∀ v, e ≠ .duty v) ∧
          (q = s.ptr ∨ ∃ x, q = x % s.cfg.eepromSize) ∧ (c = s.wcnt ∨ c ≤ 2) ∧
          (d = s.data ∨ ∃ k, p = .read k ∧ e = .rx d k)) := by
  unfold complete at h
  split at h
  · cases h
  · rename_i hp
    refine ⟨_, hp, .inr ?_⟩
    cases h
    unfold peerSeesStart
    split
    · exact ⟨_, _, _, _, _, _, _, rfl, fun m => nextSess_condition.1, by simp, .inl rfl,
        .inr (by simp), .inl rfl⟩
    · exact ⟨_, _, _, _, _, _, _, rfl, fun m => nextSess_condition.1, by simp, .inl rfl,
        .inl rfl, .inl rfl⟩
  · rename_i hp
    refine ⟨_, hp, .inr ?_⟩
    cases h
    unfold peerSeesStart
    split
    · exact ⟨_, _, _, _, _, _, _, rfl, fun m => nextSess_condition.2.1, by simp, .inl rfl,
        .inr (by simp), .inl rfl⟩
    · exact ⟨_, _, _, _, _, _, _, rfl, fun m => nextSess_condition.2.1, by simp, .inl rfl,
        .inl rfl, .inl rfl⟩
  · rename_i hp
    refine ⟨_, hp, .inr ?_⟩
    cases h
    exact ⟨_, _, _, _, _, _, _, rfl, fun m => nextSess_condition.2.2, by simp, .inl rfl,
      .inl rfl, .inl rfl⟩
  · rename_i b hp
    refine ⟨_, hp, ?_⟩
    unfold completeSend at h
    split at h
    · rename_i hn
      cases h
      exact .inl ⟨hn, rfl⟩
    · rename_i n hn
      have hm : ∀ m, nextSess s.cfg s.sess (.send b) = some m → n = m := fun m hm => by simpa [hn] using hm
      refine .inr ?_
      split at h
      · unfold peerTakes at h
        split at h
        · split at h
          · cases h
            exact ⟨_, _, _, _, _, _, _, rfl, hm, by simp, .inl rfl, .inr (by simp), .inl rfl⟩
          · cases h
            exact ⟨_, _, _, _, _, _, _, rfl, hm, by simp, .inr ⟨_, rfl⟩, .inr (by simp), .inl rfl⟩
          · cases h
        · cases h
          exact ⟨_, _, _, _, _, _, _, rfl, hm, by simp, .inl rfl, .inl rfl, .inl rfl⟩
      · cases h
        exact ⟨_, _, _, _, _, _, _, rfl, hm, by simp, .inl rfl, .inl rfl, .inl rfl⟩
  · rename_i k hp
    refine ⟨_, hp, ?_⟩
    unfold completeRead at h
    split at h
    · rename_i hn
      cases h
      exact .inl ⟨hn, rfl⟩
    · rename_i n hn
      have hm : ∀ m, nextSess s.cfg s.sess (.read k) = some m → n = m := fun m hm => by simpa [hn] using hm
      refine .inr ?_
      split at h
      · cases h
        exact ⟨_, _, _, _, _, _, _, rfl, hm, by simp, .inr ⟨_, rfl⟩, .inl rfl, .inr ⟨k, rfl, rfl⟩⟩
      · cases h
        exact ⟨_, _, _, _, _, _, _, rfl, hm, by simp, .inl rfl, .inl rfl, .inr ⟨k, rfl, rfl⟩⟩

/-! ### The foreground -/

/-- Where `FG` goes from micro-step `k`: on, or out of the command after the last (R23). -/
def nextPosition (i : Instr) (w : Word) (k : Nat) : Position :=
  if k + 1 < programLength i then .run w (k + 1) else .idle

/-- What a foreground micro-step that is neither `issue` nor `await` can write (R82, R83, R88, R92, R93, R96, R101, R111). -/
structure Writes (i : Instr) (w : Word) (k : Nat) (s t : State) : Prop where
  frame : t = { s with fg := t.fg, pos := t.pos, lim := t.lim, duty := t.duty, div := t.div, openf := t.openf,
                       tickEn := t.tickEn, en := t.en, guard := t.guard, trace := t.trace, replies := t.replies }
  fg : t.fg = nextPosition i w k ∨ (t.fg = .run w 8 ∧ k = 1 ∧ s.openf = false ∧ ∃ n, i = .select n)
  lim : t.lim = s.lim ∨ ∃ n, (i = .openClip n ∧ k = 15) ∨ (i = .select n ∧ k = 22)
  pos : (t.pos = s.pos ∧ ∀ n, ¬(i = .openClip n ∧ k = 16) ∧ ¬(i = .select n ∧ k = 23)) ∨
    (t.pos = 0#16 ∧ ∃ n, (i = .openClip n ∧ k = 16) ∨ (i = .select n ∧ k = 23))
  div : t.div = s.div ∨ (t.div = 0 ∧ ∃ n, (i = .openClip n ∧ k = 17) ∨ (i = .select n ∧ k = 24))
  openf : t.openf = s.openf ∨ (t.openf = true ∧ ∃ n, i = .select n ∧ k = 25)
  output : (t.trace = s.trace ∧ t.duty = s.duty) ∨
    (t.trace = s.trace ++ [.duty s.data] ∧ t.duty = s.data ∧ ((i = .close ∧ k = 3) ∨ ∃ n, i = .select n ∧ k = 4))
  en : t.en = s.en ∨ (i = .enable ∧ t.en = true) ∨ (i = .disable ∧ s.sess = .s0 ∧ t.en = false)
  tickEn : t.tickEn = s.tickEn ∨ i = .tickctl t.tickEn
  replies : t.replies = s.replies ∨ ∃ a, i = .read a ∧ t.replies = s.replies ++ [.byte s.data]
  guard : (t.guard = s.guard ∧ (takesGuard i = true → k + 1 < programLength i)) ∨
    (takesGuard i = true ∧ k + 1 = programLength i ∧ t.guard = false) ∨
    (takesGuard i = true ∧ k = 0 ∧ t.guard = true)
  guard_on : takesGuard i = true → k = 0 → t.guard = guardTaken s

/-- What one foreground micro-step of a command can do (R23): `issue`, `await`, the fault of DISABLE, or register writes. -/
inductive ForegroundMove (i : Instr) (w : Word) (k : Nat) (s t : State) : Prop where
  | issued (p : Prim) (notAwait : k ∉ awaitSteps i) (next : k + 1 ∈ awaitSteps i) (moved : t = issueLeaves p w k s)
  | spun (await : k ∈ awaitSteps i) (busy : s.busy = true) (same : t = s)
  | waited (await : k ∈ awaitSteps i) (free : s.busy = false) (moved : t = { s with fg := nextPosition i w k })
  | disabledInside (disable : i = .disable) (first : k = 0) (inside : s.sess ≠ .s0)
      (raised : t = raise (.protocolFault s.sess .disable) s)
  | wrote (notAwait : k ∉ awaitSteps i) (writes : Writes i w k s t)

/-- What a foreground micro-step's result leaves, in either of its three flows. -/
def After (i : Instr) (w : Word) (k : Nat) (r : State × Flow) (t : State) : Prop :=
  (r.2 = .advance ∧ t = { r.1 with fg := nextPosition i w k }) ∨ (r.2 = .stay ∧ t = r.1) ∨
    ∃ j, r.2 = .skipTo j ∧ t = { r.1 with fg := .run w j }

theorem foregroundMove_of_issue {i : Instr} {w : Word} {k : Nat} {s t : State} (p : Prim) (h1 : k ∉ awaitSteps i)
    (h2 : k + 1 ∈ awaitSteps i) (h3 : k + 1 < programLength i) (h : After i w k (issue p s) t) :
    ForegroundMove i w k s t := by
  refine .issued p h1 h2 ?_
  obtain ⟨hb, he⟩ | ⟨hb, hn, he⟩ | ⟨hb, hn, he⟩ := issue_cases p s <;>
    simp [After, he, nextPosition, h3, raise] at h <;> simp [issueLeaves, hb, h] <;> simp_all

theorem foregroundMove_of_await {i : Instr} {w : Word} {k : Nat} {s t : State} (h1 : k ∈ awaitSteps i)
    (h : After i w k (await s) t) : ForegroundMove i w k s t := by
  obtain ⟨hb, he⟩ | ⟨hb, he⟩ := await_cases s <;> simp [After, he] at h
  · exact .spun h1 hb h
  · exact .waited h1 hb h

/-- One foreground micro-step of a command, inverted (R22, R23). -/
theorem foreground_cases {i : Instr} {w : Word} {k : Nat} {s t : State}
    (h : foregroundStep (program i) w k s = .next t) : ForegroundMove i w k s t := by
  obtain ⟨m, hm, hc⟩ := foregroundStep_cases h
  have hl := program_length i
  have hk : k < programLength i := by
    rw [← hl]
    exact (List.getElem?_eq_some_iff.mp hm).1
  rw [hl] at hc
  replace hc : After i w k (m s) t := hc
  cases i <;> simp only [programLength] at hk
  all_goals (first | omega | skip)
  all_goals interval_cases k
  all_goals
    simp [program, enableProgram, primitiveProgram, readProgram, openProgram, closeProgram, openBody, closeBody,
      selectProgram, tickctlProgram] at hm
    subst hm
  all_goals first
    | exact foregroundMove_of_issue _ (by simp [awaitSteps]) (by simp [awaitSteps]) (by simp [programLength]) hc
    | exact foregroundMove_of_await (by simp [awaitSteps]) hc
    | (simp only [withClip] at hc
       split at hc
       · first
         | exact foregroundMove_of_issue _ (by simp [awaitSteps]) (by simp [awaitSteps]) (by simp [programLength]) hc
         | (simp [After, assign] at hc
            subst hc
            exact .wrote (by simp [awaitSteps]) (by
              constructor <;> simp [nextPosition, programLength, takesGuard, guardTaken]))
       · simp [After] at hc)
    | (simp [After, guardOn] at hc
       subst hc
       refine .wrote (by simp [awaitSteps]) ?_
       by_cases hg : s.cfg.guardMode = .explicit <;> constructor <;>
         simp [nextPosition, programLength, takesGuard, guardTaken, hg])
    | (simp [After, assign, guardOff, delay, writeDuty, emit, returnData] at hc
       subst hc
       exact .wrote (by simp [awaitSteps]) (by
         constructor <;> simp [nextPosition, programLength, takesGuard]))
    | (unfold deconfigure at hc
       split at hc
       · rename_i hs
         simp [After] at hc
         subst hc
         exact .wrote (by simp [awaitSteps]) (by
           constructor <;> simp [hs, nextPosition, programLength, takesGuard])
       · rename_i hs
         simp [After] at hc
         exact .disabledInside rfl rfl hs hc)
    | (cases ho : s.openf <;> simp [After, skipIf, ho] at hc <;> subst hc <;>
         exact .wrote (by simp [awaitSteps]) (by
           constructor <;> simp [ho, nextPosition, programLength, takesGuard]))

/-! ### The handler -/

/-- What one micro-step of the handler can do (R107). -/
inductive HandlerMove (s t : State) : Prop where
  | branched (at1 : s.isrpc ≤ 1) (j : Nat) (target : j = 1 ∨ (j = 2 ∧ s.pos < s.lim) ∨ j = 6 ∨ j = 7)
      (moved : t = { s with isrpc := j })
  | framing (at2 : s.isrpc = 2) (busy : s.busy = true) (raised : t = raise (.framingFault (.read .ack)) s)
  | protocol (at2 : s.isrpc = 2) (free : s.busy = false) (refused : nextSess s.cfg s.sess (.read .ack) = none)
      (raised : t = raise (.protocolFault s.sess (.prim (.read .ack))) s)
  | issued (at2 : s.isrpc = 2) (free : s.busy = false) (admitted : nextSess s.cfg s.sess (.read .ack) ≠ none)
      (moved : t = { s with inflight := some (.read .ack), busy := true, isrpc := 3 })
  | spun (at3 : s.isrpc = 3) (busy : s.busy = true) (same : t = s)
  | waited (at3 : s.isrpc = 3) (free : s.busy = false) (moved : t = { s with isrpc := 4 })
  | counted (at4 : s.isrpc = 4) (moved : t = { s with isrpc := 5, pos := s.pos + 1#16 })
  | wroteDuty (from5 : 5 ≤ s.isrpc) (to7 : s.isrpc ≤ 7) (v : Byte)
      (moved : t = { s with isrpc := 8, duty := v, trace := s.trace ++ [.duty v] })
  | divided (at8 : s.isrpc = 8) (moved : t = { s with isrpc := 9, div := (s.div + 1) % s.cfg.ticksPerSample })
  | left (at9 : s.isrpc = 9) (moved : t = { s with inIsr := false })

/-- One micro-step of the handler, inverted (R107). -/
theorem handlerStep_cases {s t : State} (h : handlerStep s = .next t) : HandlerMove s t := by
  obtain ⟨m, hm, hc⟩ := interruptStep_cases h
  have hk : s.isrpc < 10 := (List.getElem?_eq_some_iff.mp hm).1
  obtain hk | hk | hk | hk | hk | hk | hk | hk | hk | hk : s.isrpc = 0 ∨ s.isrpc = 1 ∨ s.isrpc = 2 ∨ s.isrpc = 3 ∨
    s.isrpc = 4 ∨ s.isrpc = 5 ∨ s.isrpc = 6 ∨ s.isrpc = 7 ∨ s.isrpc = 8 ∨ s.isrpc = 9 := by omega
  all_goals
    rw [hk] at hm
    simp [handlerProgram, pullBody] at hm
    subst hm
    simp only [hk] at hc
  · cases hd : s.div != 0 <;> simp [skipIf, hd] at hc
    · exact .branched (by omega) 1 (.inl rfl) hc
    · exact .branched (by omega) 6 (by simp) hc
  · cases hd : samplesLeft s <;> simp [skipIf, hd] at hc
    · exact .branched (by omega) 7 (by simp) hc
    · exact .branched (by omega) 2 (.inr (.inl ⟨rfl, by simpa [samplesLeft] using hd⟩)) hc
  · obtain ⟨hb, he⟩ | ⟨hb, hn, he⟩ | ⟨hb, hn, he⟩ := issue_cases (.read .ack) s <;> simp [he] at hc
    · exact .framing hk hb hc
    · exact .protocol hk hb hn hc
    · exact .issued hk hb hn hc
  · obtain ⟨hb, he⟩ | ⟨hb, he⟩ := await_cases s <;> simp [he] at hc
    · exact .spun hk hb hc
    · exact .waited hk hb hc
  · simp [assign] at hc
    exact .counted hk hc
  · simp [assignThenSkip, writeDuty, emit] at hc
    exact .wroteDuty (by omega) (by omega) _ hc
  · simp [assignThenSkip, writeDuty, emit] at hc
    exact .wroteDuty (by omega) (by omega) s.duty (by simpa using hc)
  · simp [assign, writeDuty, emit] at hc
    exact .wroteDuty (by omega) (by omega) _ hc
  · simp [assign, countTick] at hc
    exact .divided hk hc
  · simp [exitHandler] at hc
    exact .left hk hc

end Sys2Proof.Machine
end

