-- ==== Sys2Proof/Tests/Slice0.lean ====
section
/-! SUPPORT. The model's own tests: the well-formedness smoke test, decoding of words written out from the table, one step
of each command and of each agent, and a witness for the hypotheses of every statement. Expected results come from
spec/95_test_vectors.md or by hand from the rule named. -/

namespace Sys2Proof.Tests

open Sys2Proof.Machine

/-! ### Settings and small states (spec/95_test_vectors.md, conventions) -/

def durations : Timing := ⟨0, 0, 0, 0, 0, 0⟩

/-- Setting A. -/
def settingA : Config where
  clips := [⟨0x0000#16, 3#16⟩]
  devWr := 0xA0#8
  devRd := 0xA1#8
  eepromSize := 0x8000
  ticksPerSample := 1
  guardMode := .explicit
  oracle := .reference
  timing := durations
  wf := by decide

/-- Setting B. -/
def settingB : Config :=
  { settingA with clips := [⟨0x0000#16, 3#16⟩, ⟨0x0123#16, 4#16⟩, ⟨0x7FFE#16, 2#16⟩, ⟨0x0200#16, 0#16⟩]
                  wf := by decide }

/-- Setting B against the unconstrained oracle. -/
def settingU : Config := { settingB with oracle := .unconstrained, wf := by decide }

def arrayB : Memory :=
  Memory.provision
    (Memory.provision
      (Memory.provision (Memory.provision [] 0 [0x11#8, 0x22#8, 0x33#8, 0x44#8]) 0x0123
        [0x50#8, 0x60#8, 0x70#8, 0x80#8, 0x90#8])
      0x0200 [0xAB#8])
    0x7FFE [0xE1#8, 0xE2#8]

/-- After power-on and ENABLE; the two drawn values are named. -/
def ready : State :=
  { State.atPowerOn settingB arrayB true 0 [] with data := 0x5A#8, ptr := 0x0124, en := true }

/-- The clip of setting B's selector 1 open, one sample pulled. -/
def streaming : State :=
  { ready with openf := true, sess := .sr, lim := 4#16, pos := 1#16, tickEn := true }

/-- The foreground at micro-step `k` of the word `w`. -/
def running (w : Word) (k : Nat) (s : State) : State := { s with fg := .run w k }

/-- The handler at its micro-step `k`. -/
def inHandler (k : Nat) (s : State) : State := { s with inIsr := true, isrpc := k }

/-- A primitive in flight. -/
def flying (p : Prim) (s : State) : State := { s with inflight := some p, busy := true }

/-- The host's next move is to write `w`. -/
def offering (w : Word) (s : State) : State := { s with script := [.host (.write 0 w)] }

/-- What a next state shows of itself; none for a fault or a refusal. -/
def seen {α : Type} (r : Result) (f : State → α) : Option α :=
  match r with
  | .next t => some (f t)
  | _ => none

/-! ### Well-formedness: every check refuses an ill-formed configuration (spec/00_scope.md R7, R8) -/

theorem test_wellFormed_settingA : settingA.wellFormed = true := by decide
theorem test_wellFormed_settingB : settingB.wellFormed = true := by decide
/-- Setting B, open to ill-formed changes. -/
abbrev paramsB : Parameters := settingB.toParameters

theorem test_wellFormed_device_bytes_differ : { paramsB with devRd := 0xA0#8 }.wellFormed = false := by decide
theorem test_wellFormed_array_not_empty : { paramsB with eepromSize := 0 }.scalarsOk = false := by decide
theorem test_wellFormed_array_bounded : { paramsB with eepromSize := 0x10001 }.wellFormed = false := by decide
theorem test_wellFormed_tick_ratio : { paramsB with ticksPerSample := 0 }.wellFormed = false := by decide
theorem test_wellFormed_some_clip : { paramsB with clips := [] }.wellFormed = false := by decide
theorem test_wellFormed_at_most_256_clips :
    { paramsB with clips := List.replicate 257 ⟨0#16, 0#16⟩ }.wellFormed = false := by decide +kernel
theorem test_wellFormed_base_inside : { paramsB with clips := [⟨0x8000#16, 0#16⟩] }.wellFormed = false := by decide
theorem test_wellFormed_end_inside : { paramsB with clips := [⟨0x7FFE#16, 3#16⟩] }.wellFormed = false := by decide
theorem test_wellFormed_no_overlap :
    { paramsB with clips := [⟨0#16, 4#16⟩, ⟨3#16, 1#16⟩] }.wellFormed = false := by decide

/-- The configuration at reset has four clips, whatever they are. -/
theorem test_standard_clips : Config.standard.nClips = 4 := Config.referenceTable.four

/-! ### Decoding (spec/30_encoding.md R64, R66; vectors V-D) -/

theorem test_decode_enable : decodeWord 0b0000000100000000#16 = .ok .enable := by decide
theorem test_decode_disable : decodeWord 0b0000001000000000#16 = .ok .disable := by decide
theorem test_decode_start : decodeWord 0b0000001100000000#16 = .ok .start := by decide
theorem test_decode_rstart : decodeWord 0b0000010000000000#16 = .ok .rstart := by decide
theorem test_decode_stop : decodeWord 0b0000010100000000#16 = .ok .stop := by decide
theorem test_decode_send : decodeWord 0b0000011010100001#16 = .ok (.send 0xA1#8) := by decide
theorem test_decode_read_ack : decodeWord 0b0000011100000001#16 = .ok (.read .ack) := by decide
theorem test_decode_read_nack : decodeWord 0b0000011100000000#16 = .ok (.read .nack) := by decide
theorem test_decode_open : decodeWord 0b0000100000000010#16 = .ok (.openClip 2#8) := by decide
theorem test_decode_close : decodeWord 0b0000100100000000#16 = .ok .close := by decide
theorem test_decode_pull : decodeWord 0b0000101000000000#16 = .ok .pull := by decide
theorem test_decode_select : decodeWord 0b0000101111111111#16 = .ok (.select 0xFF#8) := by decide
theorem test_decode_tickctl_on : decodeWord 0b0000110000000001#16 = .ok (.tickctl true) := by decide
theorem test_decode_tickctl_off : decodeWord 0b0000110000000000#16 = .ok (.tickctl false) := by decide
/-- V-D1 to V-D8, each with its case of R66. -/
theorem test_illegal_words :
    decodeWord 0x0000#16 = .error .zeroOp ∧ decodeWord 0x0D00#16 = .error .reservedOp ∧
      decodeWord 0xFFFF#16 = .error .reservedOp ∧ decodeWord 0x0101#16 = .error .argNotZero ∧
      decodeWord 0x0702#16 = .error .reservedArgBits ∧ decodeWord 0x0703#16 = .error .reservedArgBits ∧
      decodeWord 0x0C02#16 = .error .reservedArgBits ∧ decodeWord 0x0A01#16 = .error .argNotZero := by decide
theorem test_table_word : decodeTableWord 16 0x0A00 = some .pull ∧ decodeTableWord 16 0x10A00 = none := by decide

/-! ### The port (R61, R67; vectors V-D9 to V-D27) -/

/-- Where the command word `w`, offered in `s`, leaves `FG`. -/
def portAfter (w : Word) (s : State) : Option Position := seen (step (offering w s)) State.fg

theorem test_port_wrongContext_before_notEnabled :
    portCheck .pull { ready with en := false } = some .wrongContext ∧
      portAfter 0x0A00#16 { ready with en := false } = some .idle := by decide
theorem test_port_notEnabled_before_selRange :
    portCheck (.select 0xFF#8) { ready with en := false } = some .notEnabled ∧
      portAfter 0x0BFF#16 { ready with en := false } = some .idle := by decide
theorem test_port_selRange :
    portCheck (.select 4#8) ready = some .selRange ∧ portAfter 0x0804#16 ready = some .idle := by decide
theorem test_port_notOpen :
    portCheck .close ready = some .notOpen ∧ portAfter 0x0900#16 ready = some .idle := by decide
theorem test_port_accepts :
    portAfter 0x0B03#16 ready = some (.run 0x0B03#16 0) ∧ portAfter 0x0900#16 streaming = some (.run 0x0900#16 0) ∧
      portAfter 0x0C01#16 { ready with en := false } = some (.run 0x0C01#16 0) := by decide
theorem test_port_drops_illegal : portAfter 0x0D00#16 ready = some .idle := by decide
/-- A pending tick is taken before the command (R128 (a)). -/
theorem test_port_tick_first :
    seen (step (offering 0x0B00#16 { streaming with tickPend := true })) (fun t => (t.inIsr, t.tickPend, t.fg)) =
      some (true, false, .idle) := by decide

/-! ### One micro-step of each command -/

/-- V-B1. -/
theorem test_enable : seen (exec .enable (running 0x0100#16 0 { ready with en := false })) (fun t => (t.en, t.fg)) =
    some (true, .idle) := by decide
/-- V-B24. -/
theorem test_disable : seen (exec .disable (running 0x0200#16 0 ready)) (fun t => (t.en, t.fault)) =
    some (false, none) := by decide
/-- V-B23. -/
theorem test_disable_inside : seen (exec .disable (running 0x0200#16 0 streaming)) (fun t => (t.en, t.fault)) =
    some (true, some (.protocolFault .sr .disable)) := by decide
/-- V-B28. -/
theorem test_start : seen (exec .start (running 0x0300#16 0 ready)) (fun t => (t.busy, t.inflight, t.fg, t.sess)) =
    some (true, some .start, .run 0x0300#16 1, .s0) := by decide
/-- V-B4. -/
theorem test_start_inside : seen (exec .start (running 0x0300#16 0 { ready with sess := .s1 })) State.fault =
    some (some (.protocolFault .s1 (.prim .start))) := by decide
/-- V-B17, V-B7. -/
theorem test_rstart :
    seen (exec .rstart (running 0x0400#16 0 { ready with sess := .sw })) State.inflight = some (some .rstart) ∧
      seen (exec .rstart (running 0x0400#16 0 ready)) State.fault =
        some (some (.protocolFault .s0 (.prim .rstart))) := by decide
/-- V-B21, V-B22. -/
theorem test_stop :
    seen (exec .stop (running 0x0500#16 0 { ready with sess := .sn })) State.inflight = some (some .stop) ∧
      seen (exec .stop (running 0x0500#16 0 streaming)) State.fault =
        some (some (.protocolFault .sr (.prim .stop))) := by decide
/-- V-B9, V-B12. -/
theorem test_send :
    seen (exec (.send 0x55#8) (running 0x0655#16 0 { ready with sess := .s1 })) State.fault =
        some (some (.protocolFault .s1 (.prim (.send 0x55#8)))) ∧
      seen (exec (.send 0xA0#8) (running 0x06A0#16 0 { ready with sess := .sw })) State.inflight =
        some (some (.send 0xA0#8)) := by decide
/-- R88 step 2: the byte that stands in `DATA` is returned. -/
theorem test_read_returns :
    seen (exec (.read .ack) (running 0x0701#16 2 streaming)) (fun t => (t.replies, t.fg)) =
      some ([.byte 0x5A#8], .idle) := by decide
/-- V-B20. -/
theorem test_read_after_nack :
    seen (exec (.read .ack) (running 0x0701#16 0 { ready with sess := .sn })) State.fault =
      some (some (.protocolFault .sn (.prim (.read .ack)))) := by decide
/-- R93 step 7 with clip 1: the low address byte. -/
theorem test_open_low_byte :
    seen (exec (.openClip 1#8) (running 0x0801#16 7 { ready with sess := .sw })) State.inflight =
      some (some (.send 0x23#8)) := by decide
/-- R93 step 15: `LIM` first, `POS` still the old one. -/
theorem test_open_lim_first :
    seen (exec (.openClip 1#8) (running 0x0801#16 15 { ready with sess := .sr, pos := 9#16 }))
      (fun t => (t.lim, t.pos, t.fg)) = some (4#16, 9#16, .run 0x0801#16 16) := by decide
/-- R96 step 3: the drain byte is written and on the trace. -/
theorem test_close_renders :
    seen (exec .close (running 0x0900#16 3 { streaming with sess := .sn })) (fun t => (t.duty, t.trace)) =
      some (0x5A#8, [.duty 0x5A#8]) := by decide
/-- R96 step 6, R92. -/
theorem test_close_releases_the_guard :
    seen (exec .close (running 0x0900#16 6 { streaming with sess := .s0, guard := true })) (fun t => (t.guard, t.fg)) =
      some (false, .idle) := by decide
/-- V-C14. -/
theorem test_pull_at_port : seen (exec .pull streaming) (fun t => decide (t = streaming)) = some true := by decide
/-- R98 step 4. -/
theorem test_pull_counts : seen (exec .pull (inHandler 4 streaming)) (fun t => (t.pos, t.isrpc)) = some (2#16, 5) := by
  decide
/-- R101 step 1: the first selection skips the close. -/
theorem test_select_skips :
    seen (exec (.select 0#8) (running 0x0B00#16 1 ready)) State.fg = some (.run 0x0B00#16 8) ∧
      seen (exec (.select 0#8) (running 0x0B00#16 1 streaming)) State.fg = some (.run 0x0B00#16 2) := by decide
/-- R101 step 25. -/
theorem test_select_sets_openf :
    seen (exec (.select 0#8) (running 0x0B00#16 25 ready)) State.openf = some true := by decide
/-- V-T8: a latched tick stays latched. -/
theorem test_tickctl_off :
    seen (exec (.tickctl false) (running 0x0C00#16 0 { streaming with tickPend := true }))
      (fun t => (t.tickEn, t.tickPend)) = some (false, true) := by decide
/-- R111: ON. -/
theorem test_tickctl_on : seen (exec (.tickctl true) (running 0x0C01#16 0 ready)) State.tickEn = some true := by decide

/-! ### The other agents -/

/-- V-B13: the address is loaded, high byte first. -/
theorem test_peer_loads :
    seen (complete (flying (.send 0x24#8) { ready with sess := .sw, wcnt := 1, ah := 0x01#8 }))
      (fun t => (t.ptr, t.wcnt, t.trace)) = some (0x0124, 2, [.tx 0x24#8 .ack]) := by decide
/-- V-B12: in `SW` a device byte is an address byte. -/
theorem test_peer_device_byte_in_sw :
    seen (complete (flying (.send 0xA0#8) { ready with sess := .sw })) (fun t => (t.sess, t.ah, t.wcnt)) =
      some (.sw, 0xA0#8, 1) := by decide
/-- V-B15. -/
theorem test_peer_third_byte :
    complete (flying (.send 0x00#8) { ready with sess := .sw, wcnt := 2 }) = .refused .unmodelledPeerWrite := by rfl
/-- V-B25. -/
theorem test_peer_wraps :
    seen (complete (flying (.read .ack) { streaming with ptr := 0x7FFF })) (fun t => (t.data, t.ptr, t.sess)) =
      some (0xE2#8, 0, .sr) := by decide
/-- V-B26: whatever acknowledge is drawn, the session goes on. -/
theorem test_peer_unconstrained :
    seen (complete (flying (.send 0xA0#8) { ready with cfg := settingU, sess := .s1 })) (fun t => (t.sess, t.busy)) =
      some (.sw, false) := by decide
/-- V-T2 and M1: a disabled clock fires nothing, a second tick is absorbed. -/
theorem test_clock :
    seen (step { ready with script := [.clock] }) State.tickPend = some false ∧
      seen (step { streaming with script := [.clock], tickPend := true }) State.tickPend = some true := by decide
/-- R107 step 6: the duty value is written again. -/
theorem test_handler_rewrites :
    seen (handlerStep (inHandler 6 { streaming with duty := 0x50#8 })) (fun t => (t.duty, t.trace, t.isrpc)) =
      some (0x50#8, [.duty 0x50#8], 8) := by decide
/-- P6: a pull with no session. -/
theorem test_handler_faults :
    seen (step (inHandler 2 { streaming with sess := .s0 })) (fun t => (t.fault, t.isrpc)) =
      some (some (.protocolFault .s0 (.prim (.read .ack))), 2) := by decide
/-- P7 without the guard: framing before protocol (R128 (c)). -/
theorem test_framing_first :
    seen (handlerStep (inHandler 2 (flying (.read .nack) { streaming with sess := .s0 }))) State.fault =
      some (some (.framingFault (.read .ack))) := by decide
/-- V-T7: the divider wraps at `TICKS_PER_SAMPLE`. -/
theorem test_divider :
    seen (handlerStep (inHandler 8 { streaming with cfg := { settingB with ticksPerSample := 3, wf := by decide }, div := 2 }))
      State.div = some 0 := by decide
/-- V-R2. -/
theorem test_status_boot : statusWord { ready with tickEn := true } = 0x001A#16 := by decide
/-- V-R1. -/
theorem test_status_reset : statusWord State.reset = 0x0008#16 := by decide
/-- R139: a line that reads 0 is pressed; one alone is served, none gives no command. -/
theorem test_poll : pollCommands 0b101#3 = [.host (.write 0 0x0B01#16)] ∧ pollCommands 0b111#3 = [] := by decide
theorem test_memory_wf : Memory.wf arrayB = true ∧ Memory.below 0x8000 arrayB = true := by decide
theorem test_memory_erased_byte_is_unlisted : Memory.write arrayB 2 0xFF#8 = Memory.provision
    (Memory.provision
      (Memory.provision (Memory.provision [] 0 [0x11#8, 0x22#8, 0xFF#8, 0x44#8]) 0x0123
        [0x50#8, 0x60#8, 0x70#8, 0x80#8, 0x90#8])
      0x0200 [0xAB#8])
    0x7FFE [0xE1#8, 0xE2#8] := by decide

/-! ### Witnesses: the hypotheses of each statement are met -/

theorem witness_EncodeOfDecode : decodeWord 0x0CFF#16 = .error .reservedArgBits ∧
    decodeWord 0x0BFF#16 = .ok (.select 0xFF#8) := by decide

/-- A free port with no tick to be taken, offered the word `w`. -/
def portOpen (w : Word) (s : State) : Bool :=
  decide (s.fault = none) && decide (s.script = [.host (.write 0 w)]) && portFree s && !entryEnabled s

theorem witness_IllegalWordsAreDropped : portOpen 0x0702#16 (offering 0x0702#16 ready) = true ∧
    (decodeWord 0x0702#16).toOption = none := by decide

/-- Two entries of a table, and an address in the range of the one. -/
theorem witness_ClipTableIsWellFormed :
    paramsB.tableOk = true ∧ paramsB.clips[0]? = some ⟨0x0000#16, 3#16⟩ ∧
      paramsB.clips[1]? = some ⟨0x0123#16, 4#16⟩ ∧ 0x0123 ≤ 0x0126 ∧ 0x0126 < 0x0123 + (4#16 : Word).toNat := by decide

theorem witness_PortChecksInOrder :
    ready.inIsr = false ∧ ready.fg = .idle ∧ ready.en = true ∧ ready.openf = false ∧ streaming.openf = true ∧
      streaming.fg = .idle ∧ ready.cfg.clips.length ≤ (4#8).toNat ∧ ¬ready.cfg.clips.length ≤ (3#8).toNat ∧
      decodeWord 0x0A01#16 = .error .argNotZero ∧ decodeWord 0x0A00#16 = .ok .pull := by decide

theorem witness_StepRunsTheWrittenCommand : portOpen 0x0300#16 (offering 0x0300#16 ready) = true ∧
    decodeWord 0x0300#16 = .ok .start := by decide

theorem witness_StepRunsTheCommandInProgress :
    let s := running 0x0B01#16 4 ready
    s.fault = none ∧ s.inIsr = false ∧ entryEnabled s = false ∧ decodeWord 0x0B01#16 = .ok (.select 1#8) ∧
      s.script = [] ∧ completionEnabled s = false := by decide

theorem witness_StepRunsTheHandlerAndPull :
    let s := inHandler 1 streaming
    s.fault = none ∧ s.inIsr = true ∧ s.script = [] ∧ completionEnabled s = false ∧ (inHandler 4 s).isrpc ≤ 4 := by decide

theorem witness_standsAt : standsAt 0x0300#16 0 (running 0x0300#16 0 ready) := ⟨rfl, rfl⟩

/-- The two sessions DISABLE tells apart, and the idle port it is accepted at. -/
theorem witness_switches :
    standsAt 0x0200#16 0 (running 0x0200#16 0 ready) ∧ ready.sess = .s0 ∧
      standsAt 0x0200#16 0 (running 0x0200#16 0 streaming) ∧ streaming.sess ≠ .s0 ∧ ready.inIsr = false ∧
      ready.fg = .idle := by
  refine ⟨⟨rfl, rfl⟩, ?_, ⟨rfl, rfl⟩, ?_⟩ <;> decide

/-- Every session in which a primitive command is admitted, and every one in which it is not, at a free engine. -/
theorem witness_PrimitiveCommandsIssue :
    (∀ x : Sess,
      let s := running 0x06A0#16 0 { ready with sess := x }
      standsAt 0x06A0#16 0 s ∧ s.busy = false ∧ s.sess = x ∧ s.cfg.devWr = 0xA0#8 ∧ s.cfg.devRd = 0xA1#8) :=
  fun _ => ⟨⟨rfl, rfl⟩, rfl, rfl, rfl, rfl⟩

theorem witness_PrimitiveCommandsAwaitAndReturn :
    standsAt 0x0300#16 1 (running 0x0300#16 1 ready) ∧ ready.busy = false ∧
      standsAt 0x0300#16 1 (running 0x0300#16 1 (flying .start ready)) ∧ (flying .start ready).busy = true ∧
      standsAt 0x0701#16 2 (running 0x0701#16 2 streaming) := by
  refine ⟨⟨rfl, rfl⟩, rfl, ⟨rfl, rfl⟩, rfl, ⟨rfl, rfl⟩⟩

theorem witness_MisplacedPrimitivesFault :
    let s := running 0x0655#16 0 { ready with sess := .s1 }
    let u := running 0x0300#16 0 (flying .start ready)
    (standsAt 0x0655#16 0 s ∧ s.busy = false ∧ s.sess ≠ .s0 ∧ s.sess ≠ .sw ∧ s.sess ≠ .sr ∧ s.sess ≠ .sn ∧
      0x55#8 ≠ s.cfg.devWr ∧ 0x55#8 ≠ s.cfg.devRd) ∧ standsAt 0x0300#16 0 u ∧ u.busy = true := by
  refine ⟨⟨⟨rfl, rfl⟩, ?_⟩, ⟨rfl, rfl⟩, rfl⟩
  decide

/-- A rest state on a responsive bus with one word offered. -/
theorem offered_intro (w : Word) (x : Sess) : offered w (offering w { ready with sess := x }) :=
  ⟨⟨rfl, rfl, rfl, rfl, rfl⟩, rfl, rfl, rfl, rfl⟩

theorem witness_PrimitiveCommandsReturn (w : Word) (x : Sess) :
    let s := offering w { ready with sess := x }
    offered w s ∧ s.en = true ∧ s.sess = x ∧ s.wcnt ≤ 1 ∧ s.cfg.devWr = 0xA0#8 ∧ s.cfg.devRd = 0xA1#8 :=
  ⟨offered_intro w x, rfl, rfl, Nat.zero_le 1, rfl, rfl⟩

theorem witness_OpenStepByStep :
    let s := running 0x0803#16 18 ready
    standsAt 0x0803#16 18 s ∧ s.cfg.clips[(3#8).toNat]? = some ⟨0x0200#16, 0#16⟩ := by
  refine ⟨⟨rfl, rfl⟩, by decide⟩

theorem witness_CloseStepByStep : standsAt 0x0900#16 6 (running 0x0900#16 6 streaming) := ⟨rfl, rfl⟩

theorem witness_SelectStepByStep :
    let s := running 0x0B00#16 26 ready
    standsAt 0x0B00#16 26 s ∧ s.cfg.clips[(0#8).toNat]? = some ⟨0x0000#16, 3#16⟩ := by
  refine ⟨⟨rfl, rfl⟩, by decide⟩

theorem witness_PullStepByStep : (inHandler 1 streaming).inIsr = true ∧ (inHandler 4 streaming).isrpc = 4 ∧
    streaming.inIsr = false ∧ streaming.fg = .idle := by decide

theorem witness_HandlerStepByStep : (inHandler 9 streaming).isrpc ≤ 9 := by decide

theorem witness_OpenReturns :
    let s := offering (encode (.openClip 1#8)) ready
    offered (encode (.openClip 1#8)) s ∧ s.en = true ∧ s.sess = .s0 ∧
      s.cfg.clips[(1#8).toNat]? = some ⟨0x0123#16, 4#16⟩ := by
  refine ⟨offered_intro _ .s0, ?_⟩
  decide

theorem witness_CloseReturns :
    let s := offering 0x0900#16 streaming
    offered 0x0900#16 s ∧ s.en = true ∧ s.openf = true ∧ s.sess = .sr :=
  ⟨⟨⟨rfl, rfl, rfl, rfl, rfl⟩, rfl, rfl, rfl, rfl⟩, rfl, rfl, rfl⟩

theorem witness_FirstSelectionOpensOnly :
    let s := offering (encode (.select 1#8)) ready
    offered (encode (.select 1#8)) s ∧ s.en = true ∧ s.openf = false ∧ s.sess = .s0 ∧
      s.cfg.clips[(1#8).toNat]? = some ⟨0x0123#16, 4#16⟩ := by
  refine ⟨offered_intro _ .s0, ?_⟩
  decide

theorem witness_ReselectionClosesOnceThenOpens :
    let s := offering (encode (.select 1#8)) streaming
    offered (encode (.select 1#8)) s ∧ s.en = true ∧ s.openf = true ∧ s.sess = .sr ∧
      s.cfg.clips[(1#8).toNat]? = some ⟨0x0123#16, 4#16⟩ := by
  refine ⟨⟨⟨rfl, rfl, rfl, rfl, rfl⟩, rfl, rfl, rfl, rfl⟩, ?_⟩
  decide

theorem witness_PullingTickPlaysOneSample :
    let s := inHandler 0 streaming
    handlerEntered s ∧ s.div = 0 ∧ s.pos < s.lim ∧ s.sess = .sr :=
  ⟨⟨rfl, rfl, rfl, rfl, rfl, rfl, rfl⟩, rfl, by decide, rfl⟩

theorem witness_OtherTicksLeaveTheBusAlone :
    handlerEntered (inHandler 0 { streaming with pos := 4#16 }) ∧ ¬(4#16 : Word) < streaming.lim ∧
      handlerEntered (inHandler 0 { streaming with div := 1 }) :=
  ⟨⟨rfl, rfl, rfl, rfl, rfl, rfl, rfl⟩, by decide, ⟨rfl, rfl, rfl, rfl, rfl, rfl, rfl⟩⟩

theorem witness_ConditionsComplete :
    (flying .start ready).inflight = some .start ∧ (flying .rstart ready).inflight = some .rstart ∧
      (flying .stop ready).inflight = some .stop := by decide

/-- A state for each clause of the peer's reaction to a byte. -/
theorem witness_ReferencePeerTakesBytes :
    let s (b : Byte) (x : Sess) (c : Nat) := flying (.send b) { ready with sess := x, wcnt := c }
    (∀ b x c, (s b x c).inflight = some (.send b) ∧ (s b x c).cfg.oracle = .reference ∧ (s b x c).sess = x ∧
      (s b x c).wcnt = c) ∧ ready.cfg.devWr = 0xA0#8 ∧ ready.cfg.devRd = 0xA1#8 :=
  ⟨fun _ _ _ => ⟨rfl, rfl, rfl, rfl⟩, rfl, rfl⟩

theorem witness_ReferencePeerSuppliesBytes :
    let s := flying (.read .nack) { streaming with ptr := 0x7FFF }
    s.inflight = some (.read .nack) ∧ s.cfg.oracle = .reference ∧ s.sess = .sr ∧ s.ptr < s.cfg.eepromSize ∧
      s.ptr + 1 = s.cfg.eepromSize := by decide

theorem witness_UnconstrainedOracleDraws :
    let s := flying (.send 0xA0#8) { ready with cfg := settingU, sess := .s1 }
    let u := flying (.read .nack) { ready with cfg := settingU, sess := .sr }
    s.cfg.oracle = .unconstrained ∧ s.inflight = some (.send 0xA0#8) ∧
      nextSess s.cfg s.sess (.send 0xA0#8) = some .sw ∧ u.cfg.oracle = .unconstrained ∧
      u.inflight = some (.read .nack) ∧ nextSess u.cfg u.sess (.read .nack) = some .sn := by decide

theorem witness_UnresponsiveBusHangs :
    let s := running 0x0B01#16 9 (flying .start { ready with guard := true, responsive := false })
    let u := inHandler 3 (flying (.read .ack) { streaming with responsive := false })
    (s.fault = none ∧ s.script = [] ∧ s.busy = true ∧ s.responsive = false ∧ s.inIsr = false ∧ s.guard = true ∧
      decodeWord 0x0B01#16 = .ok (.select 1#8) ∧ 9 ∈ awaitSteps (.select 1#8)) ∧
      u.fault = none ∧ u.script = [] ∧ u.busy = true ∧ u.responsive = false ∧ u.inIsr = true ∧ u.isrpc = 3 := by decide

/-- A tick is latched by one step and taken by another. -/
theorem witness_TicksAreLatchedByTheClockAlone :
    seen (step { streaming with script := [.clock] }) State.tickPend = some true ∧
      seen (step { streaming with tickPend := true }) State.tickPend = some false := by decide

theorem witness_HandlerEntry :
    let s := { running 0x0300#16 1 (flying .start streaming) with tickPend := true, script := [.sequencer] }
    s.fault = none ∧ s.inIsr = false ∧ s.guard = false ∧ s.script = [.sequencer] ∧
      seen (step s) State.inIsr = some true := by decide

theorem witness_HandlerEntryComesFirst :
    let s := { running 0x0B01#16 0 streaming with tickPend := true }
    let u := { offering 0x0B01#16 streaming with tickPend := true }
    (s.fault = none ∧ s.inIsr = false ∧ s.guard = false ∧ s.script = [] ∧ completionEnabled s = false ∧
      seen (step s) State.inIsr = some true) ∧
      u.inIsr = false ∧ u.guard = false ∧ u.script = [.host (.write 0 0x0B01#16)] ∧ completionEnabled u = false ∧
      seen (step u) State.inIsr = some true := by decide

/-- A step inside the handler, and the one that leaves it. -/
theorem witness_HandlerConfined :
    seen (step (inHandler 2 streaming)) State.inflight = some (some (.read .ack)) ∧
      seen (step (inHandler 9 streaming)) State.inIsr = some false := by decide

theorem witness_OpenFlagIsPermanent :
    seen (step (running 0x0B01#16 25 { ready with guard := true })) State.openf = some true := by decide

theorem witness_DataIsWrittenByReadAlone :
    seen (step (inHandler 3 (flying (.read .ack) streaming))) State.data = some 0x60#8 ∧ streaming.data = 0x5A#8 := by
  decide

theorem witness_SessionMovesAtCompletionAlone :
    seen (step (running 0x0300#16 1 (flying .start ready))) State.sess = some .s1 := by decide

/-- A step of each of the three kinds: no event, a duty event, a bus event. -/
theorem witness_DutyWritesAreOnTheTrace :
    seen (step (inHandler 8 streaming)) State.trace = some [] ∧
      seen (step (inHandler 7 streaming)) State.trace = some [.duty 0#8] ∧
      seen (step (running 0x0300#16 1 (flying .start ready))) State.trace = some [.start] := by decide

theorem witness_CursorHasTwoWriters :
    seen (step (running 0x0801#16 15 ready)) State.lim = some 4#16 ∧
      seen (step (running 0x0801#16 16 streaming)) State.pos = some 0#16 ∧
      seen (step (inHandler 4 streaming)) State.pos = some 2#16 := by decide

theorem witness_ArrayAndConfigurationAreNeverWritten : seen (step streaming) State.cfg = some settingB := by decide

theorem witness_FaultIsFinal :
    let s := { streaming with fault := some (.framingFault .stop) }
    s.fault = some (.framingFault .stop) ∧ s.script = [] ∧
      seen (step { s with script := [.powerOn] }) State.fault = some none := by decide

theorem witness_PowerOnResetsFromAnyState :
    ({ flying .stop streaming with script := [.powerOn, .clock] } : State).script = [.powerOn, .clock] := by decide

theorem witness_BootSequenceLeadsToTheBootState :
    let s := { ready with en := false, script := bootCommands }
    atRest s ∧ s.script = bootCommands := ⟨⟨rfl, rfl, rfl, rfl, rfl⟩, rfl⟩

/-- The state whose registers the host reads one by one: each shows another value. -/
def shown : State := { streaming with duty := 0x77#8, div := 2 }

/-- What the host receives from one read. -/
def readBy (n : Fin 8) (s : State) : Option (List Reply) :=
  seen (step { s with script := [.host (.read n)] }) State.replies

/-- The host reads `STATUS` of the boot state (V-R2), and its write to `R[7]` is ignored. -/
theorem witness_RegisterViewReads :
    ready.fault = none ∧ portFree ready = true ∧ entryEnabled ready = false ∧
      readBy 1 { ready with tickEn := true } = some [.reg 1 0x001A#16] ∧
      seen (step { ready with script := [.host (.write 7 0x0100#16)] }) (fun t => decide (t = ready)) = some true := by
  decide

/-- A read of each of the other registers (R33): `CMD`, `DATA`, `POS`, `LIM`, `DUTY`, `DIV` and the reserved one. -/
theorem witness_RegisterViewReads_each :
    shown.fault = none ∧ portFree shown = true ∧
      readBy 0 shown = some [.reg 0 0x0000#16] ∧ readBy 2 shown = some [.reg 2 0x005A#16] ∧
      readBy 3 shown = some [.reg 3 0x0001#16] ∧ readBy 4 shown = some [.reg 4 0x0004#16] ∧
      readBy 5 shown = some [.reg 5 0x0077#16] ∧ readBy 6 shown = some [.reg 6 0x0002#16] ∧
      readBy 7 shown = some [.reg 7 0x0000#16] := by decide

/-- A read while a handler entry is enabled sees `TICK_PEND` (log entry 24). -/
theorem witness_RegisterViewReads_before_entry :
    entryEnabled { ready with tickPend := true } = true ∧
      readBy 1 { ready with tickPend := true } = some [.reg 1 0x002A#16] := by decide

/-- What a configuration and an array of the tests bring to the invariant of the bus engine. -/
theorem engineInv_handler : EngineInv (inHandler 3 (flying (.read .ack) streaming)) where
  busy_iff := rfl
  disabled_idle := nofun
  busy_enabled := fun _ => rfl
  busy_awaited := fun _ => .inl ⟨rfl, rfl⟩
  inflight_admitted := fun p h => by
    cases (show some (Prim.read .ack) = some p from h)
    decide
  run_accepted := nofun
  isr_position := fun _ => by decide
  guard_inside := nofun
  guard_taken := nofun
  well_formed := by decide
  ptr_below := by decide
  wcnt_le := by decide
  div_below := by decide
  mem_wf := by decide
  mem_below := by decide

theorem witness_StatusBits : portFree streaming = true ∧ EngineInv streaming := by
  refine ⟨by decide, ?_⟩
  exact { engineInv_handler with
    busy_iff := rfl
    disabled_idle := nofun
    busy_enabled := nofun
    busy_awaited := nofun
    inflight_admitted := nofun
    run_accepted := nofun
    isr_position := nofun
    guard_inside := nofun
    guard_taken := nofun }

theorem witness_EngineInvariantKept : EngineInv (inHandler 3 (flying (.read .ack) streaming)) ∧
    seen (step (inHandler 3 (flying (.read .ack) streaming))) State.busy = some false :=
  ⟨engineInv_handler, by decide⟩

/-- Under the invariant a step can stop: with a recorded fault, and at the third byte of a write phase. -/
theorem witness_EngineInvariantLeavesOnlyTheSpecsStops :
    EngineInv { inHandler 3 (flying (.read .ack) streaming) with fault := some (.framingFault .stop) } ∧
      EngineInv (running 0x0600#16 1 (flying (.send 0#8) { ready with sess := .sw, wcnt := 2 })) ∧
      step (running 0x0600#16 1 (flying (.send 0#8) { ready with sess := .sw, wcnt := 2 })) =
        .refused .unmodelledPeerWrite := by
  refine ⟨{ engineInv_handler with
    busy_awaited := engineInv_handler.busy_awaited
    run_accepted := nofun
    guard_inside := nofun
    guard_taken := nofun }, { engineInv_handler with
    busy_iff := rfl
    disabled_idle := nofun
    busy_enabled := fun _ => rfl
    busy_awaited := fun _ => .inr ⟨.send 0#8, 1, by decide, by decide⟩
    inflight_admitted := fun p h => by
      cases (show some (Prim.send 0#8) = some p from h)
      decide
    run_accepted := fun w k h => by
      cases (show Position.run 0x0600#16 1 = .run w k from h)
      exact ⟨.send 0#8, by decide, by decide, fun _ => rfl, by decide⟩
    isr_position := nofun
    guard_inside := nofun
    guard_taken := fun _ i k h => by
      cases (show some (Instr.send 0#8, 1) = some (i, k) from h)
      exact nofun
    wcnt_le := by decide }, by rfl⟩

theorem witness_CursorInvariantKept : CursorInv (inHandler 3 (flying (.read .ack) streaming)) where
  engine := engineInv_handler
  guarded := rfl
  pos_le_lim := .inl (by decide)
  pull_in_range := fun _ _ _ => by decide

/-- The handler at its increment, at the last sample, and at its test on an exhausted stream of the greatest length. -/
theorem witness_PositionNeverWraps :
    PullInRange (inHandler 4 { streaming with pos := 0xFFFE#16, lim := 0xFFFF#16 }) ∧
      PullInRange (inHandler 1 { streaming with pos := 0xFFFF#16, lim := 0xFFFF#16 }) :=
  ⟨fun _ _ _ => by decide, fun _ h => absurd (show 2 ≤ 1 from h) (by decide)⟩

/-- The discipline's invariant inside SELECT, with its start in flight and a host that offers SELECT again. -/
theorem witness_SelectOnlyHostNeverFaults :
    SelectOnlyInv (offering 0x0B01#16 (running 0x0B01#16 9 (flying .start { ready with guard := true }))) where
  engine := { engineInv_handler with
    busy_iff := rfl
    disabled_idle := nofun
    busy_enabled := fun _ => rfl
    busy_awaited := fun _ => .inr ⟨.select 1#8, 9, by decide, by decide⟩
    inflight_admitted := fun p h => by
      cases (show some Prim.start = some p from h)
      decide
    run_accepted := fun w k h => by
      cases (show Position.run 0x0B01#16 9 = .run w k from h)
      exact ⟨.select 1#8, by decide, by decide, fun _ => rfl, by decide⟩
    isr_position := nofun
    guard_inside := fun _ => ⟨rfl, rfl, .select 1#8, 9, by decide, by decide, by decide⟩
    guard_taken := fun _ _ _ _ _ _ => rfl }
  guarded := rfl
  no_fault := rfl
  script_disciplined := by decide
  running_disciplined := fun i k h => by
    cases (show some (Instr.select 1#8, 9) = some (i, k) from h)
    decide
  outside := nofun
  inside := fun n k _ h => by
    cases (show some (Instr.select 1#8, 9) = some (Instr.select n, k) from h)
    exact ⟨rfl, fun _ => rfl, fun _ => nofun, fun _ h => absurd h (by decide), nofun⟩
  pulling := nofun
  pull_in_range := nofun

/-- The rest states of the discipline, before the first selection and after it. -/
theorem witness_SelectOnlyHostNeverFaults_at_rest :
    ready.fg = .idle ∧ ready.inIsr = false ∧ ready.openf = false ∧ streaming.openf = true := by decide

theorem witness_FrameOfTheSwitches :
    seen (exec (.tickctl true) (running 0x0C01#16 0 ready)) State.en = some true ∧
      seen (exec .enable ready) State.fg = some (.run 0x0100#16 0) ∧
      seen (exec .disable (inHandler 0 streaming)) State.inIsr = some true := by decide

theorem witness_FrameOfThePrimitiveCommands :
    seen (exec (.read .ack) (running 0x0701#16 0 streaming)) State.data = some 0x5A#8 ∧
      seen (exec .stop (running 0x0500#16 0 { ready with sess := .sn })) State.sess = some .sn := by decide

theorem witness_FrameOfTheGuardedCommands :
    seen (exec (.openClip 1#8) (running 0x0801#16 16 ready)) State.openf = some false ∧
      seen (exec .close (running 0x0900#16 3 streaming)) State.pos = some 1#16 ∧
      seen (exec (.select 1#8) (running 0x0B01#16 0 streaming)) State.data = some 0x5A#8 := by decide

theorem witness_FrameOfPull : seen (exec .pull (inHandler 2 streaming)) State.duty = some 0#8 := by decide

end Sys2Proof.Tests
end

section
/-! PROOFS of the statements on the scope (spec/00_scope.md): the clip table, and a step at the free port. -/

namespace Sys2Proof

/-! ### The clip table (R7, R8) -/

/-- Address `a` lies in the byte range of the clip (R8). -/
def Clip.Covers (c : Clip) (a : Nat) : Prop := c.base.toNat ≤ a ∧ a < c.base.toNat + c.len.toNat

theorem Clip.inArray_iff (size : Nat) (c : Clip) :
    c.inArray size = true ↔ c.base.toNat < size ∧ c.base.toNat + c.len.toNat ≤ size := by
  simp [Clip.inArray]

/-- `Clip.apart` compares the ends of two ranges as numbers; an empty range is apart from every other. -/
theorem Clip.apart_iff_bounds (c d : Clip) :
    c.apart d = true ↔ c.len.toNat = 0 ∨ d.len.toNat = 0 ∨ c.base.toNat + c.len.toNat ≤ d.base.toNat ∨
      d.base.toNat + d.len.toNat ≤ c.base.toNat := by
  simp [Clip.apart, or_assoc, ← BitVec.toNat_inj]

/-- Two ranges that do overlap share the greater of their bases. -/
theorem Clip.apart_iff (c d : Clip) : c.apart d = true ↔ ∀ a, ¬(c.Covers a ∧ d.Covers a) := by
  rw [Clip.apart_iff_bounds]
  unfold Clip.Covers
  constructor
  · omega
  · intro h
    have hc := h c.base.toNat
    have hd := h d.base.toNat
    omega

theorem Clip.apart_comm (c d : Clip) : c.apart d = true ↔ d.apart c = true := by
  simp only [Clip.apart_iff, and_comm]

theorem pairwiseApart_iff_pairwise (l : List Clip) :
    pairwiseApart l = true ↔ l.Pairwise fun c d => c.apart d = true := by
  induction l with
  | nil => simp [pairwiseApart]
  | cons c rest ih => simp [pairwiseApart, ih]

/-- Being apart is symmetric, so the order in which `pairwiseApart` meets two clips is immaterial. -/
theorem pairwiseApart_iff (l : List Clip) :
    pairwiseApart l = true ↔
      ∀ (m n : Nat) (d e : Clip), m ≠ n → l[m]? = some d → l[n]? = some e → d.apart e = true := by
  rw [pairwiseApart_iff_pairwise, List.pairwise_iff_getElem]
  constructor
  · intro h m n d e hmn hd he
    obtain ⟨hm, rfl⟩ := List.getElem?_eq_some_iff.mp hd
    obtain ⟨hn, rfl⟩ := List.getElem?_eq_some_iff.mp he
    obtain hlt | hgt := Nat.lt_or_gt_of_ne hmn
    · exact h m n hm hn hlt
    · exact (Clip.apart_comm _ _).mp (h n m hn hm hgt)
  · intro h m n hm hn hlt
    exact h m n _ _ hlt.ne (List.getElem?_eq_getElem hm) (List.getElem?_eq_getElem hn)

/-- The check of the table, read as R7 and R8 read it. -/
theorem Parameters.tableOk_iff (p : Parameters) :
    p.tableOk = true ↔
      1 ≤ p.clips.length ∧ p.clips.length ≤ 256 ∧
      (∀ (n : Nat) (d : Clip), p.clips[n]? = some d →
        d.base.toNat < p.eepromSize ∧ d.base.toNat + d.len.toNat ≤ p.eepromSize) ∧
      ∀ (m n : Nat) (d e : Clip) (a : Nat), m ≠ n → p.clips[m]? = some d → p.clips[n]? = some e →
        ¬(d.Covers a ∧ e.Covers a) := by
  have inside : p.clips.all (Clip.inArray p.eepromSize) = true ↔
      ∀ (n : Nat) (d : Clip), p.clips[n]? = some d →
        d.base.toNat < p.eepromSize ∧ d.base.toNat + d.len.toNat ≤ p.eepromSize := by
    simp only [List.all_eq_true, Clip.inArray_iff, List.mem_iff_getElem?, forall_exists_index]
    exact forall_comm
  have apart : pairwiseApart p.clips = true ↔
      ∀ (m n : Nat) (d e : Clip) (a : Nat), m ≠ n → p.clips[m]? = some d → p.clips[n]? = some e →
        ¬(d.Covers a ∧ e.Covers a) := by
    simp only [pairwiseApart_iff, Clip.apart_iff]
    exact ⟨fun h m n d e a hmn hd he => h m n d e hmn hd he a,
      fun h m n d e hmn hd he a => h m n d e a hmn hd he⟩
  simp only [Parameters.tableOk, clipsFit, Bool.and_eq_true, decide_eq_true_eq, inside, apart, and_assoc]
  exact Iff.rfl

theorem Config.tableOk (c : Config) : c.toParameters.tableOk = true := by
  have h := c.wf
  rw [Parameters.wellFormed, Bool.and_eq_true] at h
  exact h.2

/-- Settles O5: the Boolean check is read off clip by clip and pair by pair, and a configuration carries that it passes. -/
theorem clipTableIsWellFormed : Obligations.ClipTableIsWellFormed :=
  ⟨Parameters.tableOk_iff, fun s => (Parameters.tableOk_iff _).mp s.cfg.tableOk⟩

end Sys2Proof

namespace Sys2Proof.Machine

/-! ### A step at the free port (R61, R128) -/

/-- A step is the host's move when the turn is the host's and it can make it. -/
theorem step_of_host_ready {s : State} {op : HostOp} {rest : List Turn} (hf : s.fault = none)
    (hs : s.script = .host op :: rest) (hr : hostReady op s = true) :
    step s = hostMove op { s with script := rest } := by
  simp only [step, agentStep, hf, scriptMove, hs, hr, if_true]

/-- The host can write once the port is free and no tick is to be taken first (R61, R128). -/
theorem hostReady_write {s : State} (n : Fin 8) (w : Word) (hp : portFree s = true) (he : entryEnabled s = false) :
    hostReady (.write n w) s = true := by
  simp [hostReady, hp, he]

/-- A legal word written to the port is run by exec (R61). -/
theorem hostMove_write_port {w : Word} {i : Instr} (s : State) (hw : decodeWord w = .ok i) :
    hostMove (.write 0 w) s = exec i s := by
  simp [hostMove, writeCommand, hw]

/-- Settles O7: the host's turn is ready at a free port with no tick to be taken, and its write is exec of the word. -/
theorem stepRunsTheWrittenCommand : Obligations.StepRunsTheWrittenCommand := by
  intro s w rest i hf hs hp he hw
  rw [step_of_host_ready hf hs (hostReady_write 0 w hp he), hostMove_write_port _ hw]

end Sys2Proof.Machine
end

section
/-! PROOFS: once for all agents, what one step can do to the state (spec/00_scope.md R13), and which fields each kind of move
leaves alone. The statements over all steps are read off it. -/

namespace Sys2Proof.Machine

/-! ### The command word at the port -/

/-- The word an accepted command is run by is a word of that command (R64). -/
theorem decodeWord_encode (i : Instr) : decodeWord (encode i) = .ok i := by
  cases i with
  | send v => revert v; decide +kernel
  | openClip n => revert n; decide +kernel
  | select n => revert n; decide +kernel
  | read k => cases k <;> decide
  | tickctl e => cases e <;> decide
  | enable | disable | start | rstart | stop | close | pull => decide

theorem portFree_iff (s : State) : portFree s = true ↔ s.fg = .idle ∧ s.inIsr = false := by
  simp [portFree]

theorem entryEnabled_iff (s : State) :
    entryEnabled s = true ↔ s.tickPend = true ∧ s.inIsr = false ∧ s.guard = false := by
  simp [entryEnabled, and_assoc]

theorem completionEnabled_iff (s : State) :
    completionEnabled s = true ↔ s.busy = true ∧ s.responsive = true := by
  simp [completionEnabled]

/-- A host that can make its move has the port free (R61, R138). -/
theorem portFree_of_hostReady {op : HostOp} {s : State} (h : hostReady op s = true) : portFree s = true := by
  cases op with
  | write n w => exact (Bool.and_eq_true_iff.mp h).1
  | read n => exact h
  | poll lines => exact h

theorem running_of_run {s : State} {w : Word} {k : Nat} {i : Instr} (hfg : s.fg = .run w k)
    (hw : decodeWord w = .ok i) : running s = some (i, k) := by
  simp [running, commandAt, hfg, hw]

theorem running_of_idle {s : State} (hfg : s.fg = .idle) : running s = none := by
  simp [running, commandAt, hfg]

/-! ### One step of any agent -/

/-- What one step that is no power-on does to the state, the script apart. -/
inductive Move (s t : State) : Prop where
  /-- The environment's move, a command dropped at the port, or no move at all. -/
  | environment
      (frame : t = { s with script := t.script, responsive := t.responsive, replies := t.replies,
                            tickPend := t.tickPend })
  /-- A command is accepted at the free port (R61, R67). -/
  | accepted (i : Instr) (free : portFree s = true) (checked : portCheck i s = none)
      (moved : t = { s with fg := .run (encode i) 0 })
  /-- The bus engine completes the primitive in flight (R78). -/
  | completed (enabled : completionEnabled s = true) (done : complete s = .next t)
  /-- The sequencer takes the interrupt (R127). -/
  | entered (enabled : entryEnabled s = true) (moved : t = enterHandler s)
  /-- A micro-step of the handler (R107). -/
  | handled (inside : s.inIsr = true) (move : HandlerMove s t)
  /-- A micro-step of the command in progress (R22, R23). -/
  | stepped (outside : s.inIsr = false) (w : Word) (k : Nat) (i : Instr) (stands : s.fg = .run w k)
      (decodes : decodeWord w = .ok i) (move : ForegroundMove i w k s t)

/-- What the host's move leaves: a command accepted, or a move of the environment. -/
theorem move_of_hostMove {op : HostOp} {s t : State} (hp : portFree s = true) (h : hostMove op s = .next t) :
    Move s t := by
  obtain ⟨hfg, hi⟩ := (portFree_iff s).mp hp
  cases op with
  | read n => cases h; exact .environment rfl
  | poll lines => cases h; exact .environment rfl
  | write n w =>
    by_cases hn : n = 0
    · simp only [hostMove, hn, if_true, writeCommand] at h
      split at h
      · rename_i i _
        rw [exec_foreground i hi, command_at_port hi hfg] at h
        obtain ⟨_, he⟩ | ⟨hc, he⟩ := accept_cases i s <;> rw [he] at h <;> cases h
        · exact .environment rfl
        · exact .accepted i hp hc rfl
      · cases h; exact .environment rfl
    · simp only [hostMove, hn, if_false] at h
      cases h; exact .environment rfl

/-- What the sequencer's move leaves (R127, R128). -/
theorem move_of_sequencerMove {s t : State} (h : sequencerMove s = .next t) : Move s t := by
  obtain ⟨hi, he⟩ | ⟨_, hen, he⟩ | ⟨_, _, _, he⟩ | ⟨hi, _, w, k, i, hfg, hw, he⟩ | ⟨_, _, _, _, _, _, he⟩ :=
    sequencerMove_cases s <;> rw [he] at h
  · exact .handled hi (handlerStep_cases h)
  · cases h; exact .entered hen rfl
  · cases h; exact .environment rfl
  · rw [exec_foreground i hi, command_running hi hfg] at h
    exact .stepped hi w k i hfg hw (foreground_cases h)
  · cases h

/-- Every step but power-on is a move, once the script is put aside. -/
theorem step_move {s t : State} (h : step s = .next t) (hp : ¬powerOnNext s) :
    ∃ sc, Move { s with script := sc } t := by
  obtain ⟨rest, hs, _⟩ | ⟨_, host | clock | bus | engine | block⟩ := step_cases h
  · exact absurd ⟨rest, hs⟩ hp
  · obtain ⟨op, rest, _, hr, hm⟩ := host
    exact ⟨rest, move_of_hostMove (portFree_of_hostReady hr) hm⟩
  · obtain ⟨rest, _, rfl⟩ := clock
    refine ⟨rest, .environment ?_⟩
    unfold fireTick
    split <;> rfl
  · obtain ⟨r, rest, _, rfl⟩ := bus
    exact ⟨rest, .environment rfl⟩
  · obtain ⟨rest, _, _, rfl⟩ := engine
    exact ⟨rest, .environment rfl⟩
  · obtain ⟨sc, _, ⟨hc, hm⟩ | hm⟩ := block
    · exact ⟨sc, .completed hc hm⟩
    · exact ⟨sc, move_of_sequencerMove hm⟩

/-- The turn of a power-on is taken in every state, a faulted one too (R115, R137). -/
theorem step_of_powerOn {s : State} {rest : List Turn} (hs : s.script = .powerOn :: rest) :
    step s = .next (powerCycle rest s) := by
  unfold step agentStep
  cases s.fault <;> simp [hs, scriptMove]

/-- Every step is a power-on or a move. -/
theorem step_power_or_move {s t : State} (h : step s = .next t) :
    (∃ rest, t = powerCycle rest s) ∨ ∃ sc, Move { s with script := sc } t := by
  by_cases hp : powerOnNext s
  · obtain ⟨rest, hs⟩ := hp
    rw [step_of_powerOn hs] at h
    cases h
    exact .inl ⟨rest, rfl⟩
  · exact .inr (step_move h hp)

/-! ### What each kind of move leaves alone -/

/-- A foreground micro-step writes registers, or it hands over, waits or raises and writes none of them (R76, R77, R83). -/
theorem ForegroundMove.writes_or_waits {i : Instr} {w : Word} {k : Nat} {s t : State} (m : ForegroundMove i w k s t) :
    (k ∉ awaitSteps i ∧ Writes i w k s t) ∨
      ((k ∈ awaitSteps i ∨ k + 1 ∈ awaitSteps i ∨ i = .disable) ∧
        t = { s with fg := t.fg, inflight := t.inflight, busy := t.busy, fault := t.fault }) := by
  cases m with
  | issued p _ next moved =>
    refine .inr ⟨.inr (.inl next), ?_⟩
    rw [moved]
    unfold issueLeaves
    split
    · rfl
    · split <;> rfl
  | spun await _ same => exact .inr ⟨.inl await, by rw [same]⟩
  | waited await _ moved => exact .inr ⟨.inl await, by rw [moved]⟩
  | disabledInside disable _ _ raised => exact .inr ⟨.inr (.inr disable), by rw [raised]; rfl⟩
  | wrote notAwait writes => exact .inl ⟨notAwait, writes⟩

/-- What no micro-step of the foreground writes: the session, `DATA`, the tick and the handler, the peer, the environment. -/
theorem ForegroundMove.frame {i : Instr} {w : Word} {k : Nat} {s t : State} (m : ForegroundMove i w k s t) :
    t = { s with fg := t.fg, pos := t.pos, lim := t.lim, duty := t.duty, div := t.div, openf := t.openf,
                 tickEn := t.tickEn, en := t.en, guard := t.guard, trace := t.trace, replies := t.replies,
                 inflight := t.inflight, busy := t.busy, fault := t.fault } := by
  obtain ⟨_, hw⟩ | ⟨_, ht⟩ := m.writes_or_waits
  · rw [hw.frame]
  · rw [ht]

/-- What no micro-step of the handler writes (R106). -/
theorem HandlerMove.frame {s t : State} (m : HandlerMove s t) :
    t = { s with pos := t.pos, duty := t.duty, div := t.div, isrpc := t.isrpc, inIsr := t.inIsr,
                 inflight := t.inflight, busy := t.busy, fault := t.fault, trace := t.trace } := by
  cases m <;> subst t <;> rfl

/-- What no completion writes (R78). -/
theorem complete_frame {s t : State} (h : complete s = .next t) :
    t = { s with sess := t.sess, inflight := t.inflight, busy := t.busy, trace := t.trace, data := t.data,
                 ptr := t.ptr, wcnt := t.wcnt, ah := t.ah, draws := t.draws, fault := t.fault } := by
  obtain ⟨p, _, ⟨_, rfl⟩ | ⟨n, e, d, q, c, a, r, rfl, _⟩⟩ := complete_cases h <;> rfl

/-- No move writes the peer's array or the configuration (R35, R59). -/
theorem Move.array_config {s t : State} (m : Move s t) : t.eeprom = s.eeprom ∧ t.cfg = s.cfg := by
  cases m with
  | environment frame => rw [frame]; exact ⟨rfl, rfl⟩
  | accepted i _ _ moved => subst moved; exact ⟨rfl, rfl⟩
  | completed _ done => rw [complete_frame done]; exact ⟨rfl, rfl⟩
  | entered _ moved => subst moved; exact ⟨rfl, rfl⟩
  | handled _ move => rw [move.frame]; exact ⟨rfl, rfl⟩
  | stepped _ w k i _ _ move => rw [move.frame]; exact ⟨rfl, rfl⟩

end Sys2Proof.Machine
end

section
/-! PROOFS of the statements over all steps (spec/10_state.md): who writes `OPENF`, `DATA`, `DUTY` and the cursor. -/

namespace Sys2Proof.Machine

/-! ### Who writes the registers -/

/-- The cursor, the duty register, the receive buffer, `OPENF` and the trace are as before. -/
structure SameRegisters (s t : State) : Prop where
  pos : t.pos = s.pos
  lim : t.lim = s.lim
  duty : t.duty = s.duty
  data : t.data = s.data
  openf : t.openf = s.openf
  trace : t.trace = s.trace

/-- Only a completion, a micro-step of the handler and a register write of a command write one of them. -/
theorem Move.registers {s t : State} (m : Move s t) :
    SameRegisters s t ∨ (completionEnabled s = true ∧ complete s = .next t) ∨
      (s.inIsr = true ∧ HandlerMove s t) ∨
      (s.inIsr = false ∧ ∃ i w k, running s = some (i, k) ∧ Writes i w k s t) := by
  cases m with
  | environment frame => rw [frame]; exact .inl ⟨rfl, rfl, rfl, rfl, rfl, rfl⟩
  | accepted i _ _ moved => subst moved; exact .inl ⟨rfl, rfl, rfl, rfl, rfl, rfl⟩
  | completed enabled done => exact .inr (.inl ⟨enabled, done⟩)
  | entered _ moved => subst moved; exact .inl ⟨rfl, rfl, rfl, rfl, rfl, rfl⟩
  | handled inside move => exact .inr (.inr (.inl ⟨inside, move⟩))
  | stepped outside w k i stands decodes move =>
    obtain ⟨_, hw⟩ | ⟨_, waits⟩ := move.writes_or_waits
    · exact .inr (.inr (.inr ⟨outside, i, w, k, running_of_run stands decodes, hw⟩))
    · rw [waits]; exact .inl ⟨rfl, rfl, rfl, rfl, rfl, rfl⟩

/-! ### `OPENF` (R26) -/

/-- Only SELECT's micro-step 25 writes `OPENF`. -/
theorem Move.openf {s t : State} (m : Move s t) :
    t.openf = s.openf ∨ (t.openf = true ∧ s.inIsr = false ∧ ∃ n, running s = some (.select n, 25)) := by
  obtain same | ⟨_, done⟩ | ⟨_, hm⟩ | ⟨hi, i, w, k, hr, hw⟩ := m.registers
  · exact .inl same.openf
  · exact .inl (congrArg State.openf (complete_frame done) :)
  · exact .inl (congrArg State.openf hm.frame :)
  · obtain same | ⟨set, n, rfl, rfl⟩ := hw.openf
    · exact .inl same
    · exact .inr ⟨set, hi, n, hr⟩

/-- Settles O38: every move leaves `OPENF` alone but SELECT's micro-step 25, which sets it. -/
theorem openFlagIsPermanent : Obligations.OpenFlagIsPermanent := by
  intro s t h hp
  obtain ⟨sc, m⟩ := step_move h hp
  obtain same | ⟨set, hi, n, hr⟩ := m.openf
  · exact ⟨same.trans, fun ho ht => absurd (same.symm.trans ht) (by simp [ho])⟩
  · exact ⟨fun _ => set, fun _ _ => ⟨hi, n, hr⟩⟩

/-! ### `DATA` (R21) -/

/-- Only the completion of a READ writes `DATA`, and the byte is on the trace. -/
theorem Move.data {s t : State} (m : Move s t) :
    t.data = s.data ∨ (completionEnabled s = true ∧
      ∃ k, s.inflight = some (.read k) ∧ t.trace = s.trace ++ [.rx t.data k]) := by
  obtain same | ⟨enabled, done⟩ | ⟨_, hm⟩ | ⟨_, i, w, k, _, hw⟩ := m.registers
  · exact .inl same.data
  · obtain ⟨p, hp, ⟨_, rfl⟩ | ⟨n, e, d, q, c, a, r, rfl, _, _, _, _, same | ⟨k, rfl, rfl⟩⟩⟩ := complete_cases done
    · exact .inl rfl
    · exact .inl same
    · exact .inr ⟨enabled, k, hp, rfl⟩
  · exact .inl (congrArg State.data hm.frame :)
  · exact .inl (congrArg State.data hw.frame :)

/-- Settles O39: a move that changes `DATA` is the completion of a READ. -/
theorem dataIsWrittenByReadAlone : Obligations.DataIsWrittenByReadAlone := by
  intro s t h hp hd
  obtain ⟨sc, m⟩ := step_move h hp
  obtain ⟨enabled, read⟩ := m.data.resolve_left hd
  obtain ⟨busy, responsive⟩ := (completionEnabled_iff _).mp enabled
  exact ⟨busy, responsive, read⟩

/-! ### The trace and `DUTY` (R11, R20) -/

/-- At most one event, and `DUTY` written exactly with the event of its new value. -/
def OneEvent (s t : State) : Prop :=
  (t.trace = s.trace ∧ t.duty = s.duty) ∨ (∃ v, t.trace = s.trace ++ [.duty v] ∧ t.duty = v) ∨
    ∃ e, (∀ v, e ≠ .duty v) ∧ t.trace = s.trace ++ [e] ∧ t.duty = s.duty

/-- A completion emits the event of its primitive (R78). -/
theorem complete_oneEvent {s t : State} (h : complete s = .next t) : OneEvent s t := by
  obtain ⟨p, _, ⟨_, rfl⟩ | ⟨n, e, d, q, c, a, r, rfl, _, bus, _⟩⟩ := complete_cases h
  · exact .inl ⟨rfl, rfl⟩
  · exact .inr (.inr ⟨e, bus, rfl, rfl⟩)

/-- The handler emits with its one write of `DUTY` (R107). -/
theorem HandlerMove.oneEvent {s t : State} (m : HandlerMove s t) : OneEvent s t := by
  cases m with
  | wroteDuty _ _ v moved => subst moved; exact .inr (.inl ⟨v, rfl, rfl⟩)
  | branched | framing | protocol | issued | spun | waited | counted | divided | left =>
    subst t
    exact .inl ⟨rfl, rfl⟩

/-- A completion emits the event of its primitive, the handler and a command that of a write of `DUTY`. -/
theorem Move.oneEvent {s t : State} (m : Move s t) : OneEvent s t := by
  obtain same | ⟨_, done⟩ | ⟨_, hm⟩ | ⟨_, i, w, k, _, hw⟩ := m.registers
  · exact .inl ⟨same.trace, same.duty⟩
  · exact complete_oneEvent done
  · exact hm.oneEvent
  · obtain none | ⟨event, duty, _⟩ := hw.output
    · exact .inl none
    · exact .inr (.inl ⟨s.data, event, duty⟩)

/-- Settles O41: every kind of move emits at most one event, that of `DUTY` with its write. -/
theorem dutyWritesAreOnTheTrace : Obligations.DutyWritesAreOnTheTrace := by
  intro s t h hp
  obtain ⟨sc, m⟩ := step_move h hp
  exact m.oneEvent

/-! ### The cursor (R17, R18) -/

/-- Only `open_stream` writes `LIM`. -/
theorem Move.lim {s t : State} (m : Move s t) :
    t.lim = s.lim ∨
      (s.inIsr = false ∧ ∃ n, running s = some (.openClip n, 15) ∨ running s = some (.select n, 22)) := by
  obtain same | ⟨_, done⟩ | ⟨_, hm⟩ | ⟨hi, i, w, k, hr, hw⟩ := m.registers
  · exact .inl same.lim
  · exact .inl (congrArg State.lim (complete_frame done) :)
  · exact .inl (congrArg State.lim hm.frame :)
  · obtain same | ⟨n, ⟨rfl, rfl⟩ | ⟨rfl, rfl⟩⟩ := hw.lim
    · exact .inl same
    · exact .inr ⟨hi, n, .inl hr⟩
    · exact .inr ⟨hi, n, .inr hr⟩

/-- Of the handler's micro-steps only the fourth writes `POS` (R98). -/
theorem HandlerMove.pos {s t : State} (m : HandlerMove s t) :
    t.pos = s.pos ∨ (s.isrpc = 4 ∧ t.pos = s.pos + 1#16) := by
  cases m with
  | counted at4 moved => subst moved; exact .inr ⟨at4, rfl⟩
  | branched | framing | protocol | issued | spun | waited | wroteDuty | divided | left =>
    subst t
    exact .inl rfl

/-- `open_stream` clears `POS`, and the handler's pull counts it up. -/
theorem Move.pos {s t : State} (m : Move s t) :
    t.pos = s.pos ∨
      (s.inIsr = false ∧ t.pos = 0#16 ∧
        ∃ n, running s = some (.openClip n, 16) ∨ running s = some (.select n, 23)) ∨
      (s.inIsr = true ∧ s.isrpc = 4 ∧ t.pos = s.pos + 1#16) := by
  obtain same | ⟨_, done⟩ | ⟨hi, hm⟩ | ⟨hi, i, w, k, hr, hw⟩ := m.registers
  · exact .inl same.pos
  · exact .inl (congrArg State.pos (complete_frame done) :)
  · exact hm.pos.imp_right fun counted => .inr ⟨hi, counted⟩
  · obtain ⟨same, _⟩ | ⟨zero, n, ⟨rfl, rfl⟩ | ⟨rfl, rfl⟩⟩ := hw.pos
    · exact .inl same
    · exact .inr (.inl ⟨hi, zero, n, .inl hr⟩)
    · exact .inr (.inl ⟨hi, zero, n, .inr hr⟩)

/-- Settles O42: a move that changes `LIM` or `POS` is one of the writes named. -/
theorem cursorHasTwoWriters : Obligations.CursorHasTwoWriters := by
  intro s t h hp
  obtain ⟨sc, m⟩ := step_move h hp
  exact ⟨m.lim.resolve_left, m.pos.resolve_left⟩

end Sys2Proof.Machine
end

section
/-! PROOFS of the statements on a single turn (spec/10_state.md): the command in progress, power-on and reset, and the register
view. -/

namespace Sys2Proof.Machine

/-! ### The sequencer's turn (R22, R23) -/

/-- With no move of the environment and no completion, the step is the sequencer's. -/
theorem step_of_silence {s : State} (hf : s.fault = none) (hs : s.script = []) (hc : completionEnabled s = false) :
    step s = sequencerMove s := by
  simp [step, agentStep, hf, scriptMove, hs, blockMove, hc]

theorem step_of_sequencer_turn {s : State} {rest : List Turn} (hf : s.fault = none)
    (hs : s.script = .sequencer :: rest) : step s = sequencerMove { s with script := rest } := by
  simp only [step, agentStep, hf, scriptMove, hs]

/-- The sequencer goes on with the command in progress, by exec. -/
theorem sequencerMove_running {s : State} {w : Word} {k : Nat} {i : Instr} (hi : s.inIsr = false)
    (he : entryEnabled s = false) (hfg : s.fg = .run w k) (hw : decodeWord w = .ok i) :
    sequencerMove s = exec i s := by
  simp [sequencerMove, hi, he, hfg, hw]

/-- Settles O8: either way the turn is the sequencer's, which goes on by exec. -/
theorem stepRunsTheCommandInProgress : Obligations.StepRunsTheCommandInProgress := by
  intro s w k i hf hi he hfg hw
  constructor
  · intro hs hc
    rw [step_of_silence hf hs hc, sequencerMove_running hi he hfg hw]
  · intro rest hs
    rw [step_of_sequencer_turn hf hs]
    exact sequencerMove_running hi he hfg hw

/-! ### Reset and power-on (R42, R137, R141) -/

/-- Settles O45: reset is a power-on, which names each value. -/
theorem resetValues : Obligations.ResetValues :=
  ⟨rfl, rfl, rfl, rfl, rfl, rfl, rfl, rfl, rfl, rfl, rfl, rfl, rfl, rfl, rfl, rfl⟩

/-- Settles O46: the turn is taken whatever the state, and leads to the state after power-on. -/
theorem powerOnResetsFromAnyState : Obligations.PowerOnResetsFromAnyState := by
  intro s rest hs
  exact ⟨powerCycle rest s, step_of_powerOn hs, rfl, rfl, rfl, rfl, rfl, rfl, rfl, rfl, rfl, rfl, rfl, rfl, rfl, rfl,
    rfl, rfl, rfl, rfl, rfl⟩

/-! ### The register view (R33) -/

/-- The value of each register, by its number. -/
theorem regRead_values (s : State) :
    regRead s 0 = 0#16 ∧ regRead s 1 = statusWord s ∧ (regRead s 2).toNat = s.data.toNat ∧ regRead s 3 = s.pos ∧
      regRead s 4 = s.lim ∧ (regRead s 5).toNat = s.duty.toNat ∧ (regRead s 6).toNat = s.div % 65536 ∧
      regRead s 7 = 0#16 :=
  ⟨rfl, rfl, BitVec.toNat_setWidth_of_le (by decide), rfl, rfl, BitVec.toNat_setWidth_of_le (by decide),
    BitVec.toNat_ofNat _ _, rfl⟩

/-- Settles O48: at the free port the host's turn is taken; a read answers the register, a write past the port does
nothing. -/
theorem registerViewReads : Obligations.RegisterViewReads := by
  intro s n rest hf hp
  constructor
  · intro hs
    obtain ⟨r0, r1, r2, r3, r4, r5, r6, r7⟩ := regRead_values s
    refine ⟨regRead s n, step_of_host_ready hf hs hp, ?_, ?_, ?_, ?_, ?_, ?_, ?_⟩
    · rintro (rfl | rfl)
      exacts [r0, r7]
    all_goals
      rintro rfl
      assumption
  · intro w hn he hs
    rw [step_of_host_ready hf hs (hostReady_write n w hp he), hostMove, if_neg hn]

/-- Each bit of `STATUS` is its flag, and the upper byte is 0 (R34). -/
theorem statusWord_bits (s : State) :
    (statusWord s).getLsbD 0 = s.busy ∧ (statusWord s).getLsbD 1 = s.en ∧ (statusWord s).getLsbD 2 = s.openf ∧
    (statusWord s).getLsbD 3 = (s.pos == s.lim) ∧ (statusWord s).getLsbD 4 = s.tickEn ∧
    (statusWord s).getLsbD 5 = s.tickPend ∧ (statusWord s).getLsbD 6 = s.inIsr ∧
    (statusWord s).getLsbD 7 = s.guard ∧ ∀ j, 8 ≤ j → (statusWord s).getLsbD j = false := by
  unfold statusWord
  refine ⟨?_, ?_, ?_, ?_, ?_, ?_, ?_, ?_, fun j hj => ?upper⟩
  case upper => rw [BitVec.getLsbD_append, if_neg (by omega), BitVec.getLsbD_zero]
  all_goals simp only [BitVec.getLsbD_append, BitVec.getLsbD_ofBool, exhausted]; rfl

/-- Whenever the port is free no primitive is in flight, the handler does not run and the guard is down (R61, R80, R92). -/
theorem EngineInv.port_quiet {s : State} (h : EngineInv s) (hp : portFree s = true) :
    s.busy = false ∧ s.inIsr = false ∧ s.guard = false := by
  obtain ⟨hfg, hi⟩ := (portFree_iff s).mp hp
  have idle : ∀ i k, running s ≠ some (i, k) := by simp [running_of_idle hfg]
  refine ⟨Bool.eq_false_iff.mpr fun hb => ?_, hi, Bool.eq_false_iff.mpr fun hg => ?_⟩
  · obtain ⟨inside, _⟩ | ⟨i, k, hr, _⟩ := h.busy_awaited hb
    · simp [hi] at inside
    · exact idle i k hr
  · obtain ⟨_, _, i, k, hr, _⟩ := h.guard_inside hg
    exact idle i k hr

/-- Settles O49: the word bit by bit, and under the engine's invariant a free port leaves the three bits down. -/
theorem statusBits : Obligations.StatusBits := ⟨statusWord_bits, fun _ => EngineInv.port_quiet⟩

end Sys2Proof.Machine
end

section
/-! PROOFS: every step of every agent keeps the invariant of the bus engine (spec/40_bus_engine.md R80), and it holds after
power-on. -/

namespace Sys2Proof.Machine

/-! ### The tables of positions -/

/-- Where a command awaits: past its first micro-step, with the engine enabled, and never last in a guarded command. -/
theorem awaitSteps_bounds {i : Instr} {k : Nat} (h : k ∈ awaitSteps i) :
    1 ≤ k ∧ k < programLength i ∧ needsEngine i = true ∧
      (takesGuard i = true → 2 ≤ k ∧ k + 1 < programLength i) := by
  cases i <;> simp [awaitSteps, programLength, needsEngine, takesGuard] at h ⊢ <;> omega

theorem programLength_pos {i : Instr} (h : i ≠ .pull) : 0 < programLength i := by
  cases i <;> simp_all [programLength]

theorem nextPosition_of_lt {i : Instr} {k : Nat} (w : Word) (h : k + 1 < programLength i) :
    nextPosition i w k = .run w (k + 1) := if_pos h

theorem nextPosition_of_last {i : Instr} {k : Nat} (w : Word) (h : k + 1 = programLength i) :
    nextPosition i w k = .idle := if_neg (by omega)

/-! ### What the invariant gives at a position -/

/-- The guard is up exactly inside a guarded command, in the explicit mode (R31, R92). -/
theorem EngineInv.guard_iff {s : State} (h : EngineInv s) {i : Instr} {k : Nat}
    (hr : running s = some (i, k)) :
    s.guard = true ↔ s.cfg.guardMode = .explicit ∧ takesGuard i = true ∧ 1 ≤ k := by
  constructor
  · intro hg
    obtain ⟨he, _, i', k', hr', ht, hk⟩ := h.guard_inside hg
    obtain ⟨rfl, rfl⟩ : i = i' ∧ k = k' := by simpa [hr] using hr'
    exact ⟨he, ht, hk⟩
  · exact fun ⟨he, ht, hk⟩ => h.guard_taken he i k hr ht hk

theorem EngineInv.guard_in_handler {s : State} (h : EngineInv s) (hi : s.inIsr = true) : s.guard = false := by
  refine Bool.eq_false_iff.mpr fun hg => ?_
  obtain ⟨_, outside, _⟩ := h.guard_inside hg
  simp [hi] at outside

/-- Past its check at the port a running command has its engine and its selector (R67). -/
theorem EngineInv.running_accepted {s : State} (h : EngineInv s) {w : Word} {k : Nat} {i : Instr}
    (hfg : s.fg = .run w k) (hw : decodeWord w = .ok i) :
    k < programLength i ∧ (needsEngine i = true → s.en = true) ∧ selectorInTable s.cfg i = true := by
  obtain ⟨i', hw', hk, he, hs⟩ := h.run_accepted w k hfg
  obtain rfl : i = i' := by simpa [hw] using hw'
  exact ⟨hk, he, hs⟩

theorem EngineInv.busy_in_foreground {s : State} (h : EngineInv s) (hb : s.busy = true)
    (hn : s.inIsr = true → s.isrpc ≠ 3) : ∃ i k, running s = some (i, k) ∧ k ∈ awaitSteps i :=
  (h.busy_awaited hb).resolve_left fun ⟨hi, h3⟩ => hn hi h3

/-! ### Updates that keep it -/

/-- The script, the bus's response, what is observed, a latched tick and a recorded fault are no part of the invariant. -/
theorem EngineInv.environment {s : State} (h : EngineInv s) (sc : List Turn) (r : Bool) (rs : List Reply) (p : Bool)
    (f : Option Fault) :
    EngineInv { s with script := sc, responsive := r, replies := rs, tickPend := p, fault := f } :=
  { h with }

/-- The foreground moves to micro-step `j` of a command whose port checks hold, with the guard as R92 has it there. -/
theorem EngineInv.at_step {s : State} (h : EngineInv s) (hi : s.inIsr = false) (hb : s.busy = false) {w : Word} {j : Nat}
    {i : Instr} (hw : decodeWord w = .ok i) (hj : j < programLength i) (hen : needsEngine i = true → s.en = true)
    (hsel : selectorInTable s.cfg i = true) {g : Bool}
    (hg : g = true ↔ s.cfg.guardMode = .explicit ∧ takesGuard i = true ∧ 1 ≤ j) :
    EngineInv { s with fg := .run w j, guard := g } := by
  have hr : commandAt (.run w j) = some (i, j) := by simp [commandAt, hw]
  exact { h with
    busy_awaited := fun hb' => absurd hb' (by simp [hb])
    run_accepted := by
      intro w' k' hfg
      cases hfg
      exact ⟨i, hw, hj, hen, hsel⟩
    guard_inside := by
      intro hg'
      obtain ⟨he, ht, hj1⟩ := hg.mp hg'
      exact ⟨he, hi, i, j, hr, ht, hj1⟩
    guard_taken := by
      intro he i' k' hr' ht hk
      obtain ⟨rfl, rfl⟩ : i = i' ∧ j = k' := by simpa [running, hr] using hr'
      exact hg.mpr ⟨he, ht, hk⟩ }

/-- The foreground leaves its command, with the guard down. -/
theorem EngineInv.at_idle {s : State} (h : EngineInv s) (hb : s.busy = false) :
    EngineInv { s with fg := .idle, guard := false } :=
  { h with
    busy_awaited := fun hb' => absurd hb' (by simp [hb])
    run_accepted := nofun
    guard_inside := nofun
    guard_taken := nofun }

/-- The foreground goes on from its micro-step `k`, with the guard up where it is not the last. -/
theorem EngineInv.at_next {s : State} (h : EngineInv s) (hi : s.inIsr = false) (hb : s.busy = false) {w : Word} {k : Nat}
    {i : Instr} (hfg : s.fg = .run w k) (hw : decodeWord w = .ok i) {g : Bool}
    (hg : g = true ↔ s.cfg.guardMode = .explicit ∧ takesGuard i = true ∧ k + 1 < programLength i) :
    EngineInv { s with fg := nextPosition i w k, guard := g } := by
  obtain ⟨hk, hen, hsel⟩ := h.running_accepted hfg hw
  by_cases hl : k + 1 < programLength i
  · rw [nextPosition_of_lt w hl]
    exact h.at_step hi hb hw hl hen hsel (by simpa [hl] using hg)
  · obtain rfl : g = false := by simpa [hl] using hg
    rw [nextPosition_of_last w (by omega)]
    exact h.at_idle hb

/-- The foreground hands a primitive the grammar admits to the engine and awaits it (R76, R77). -/
theorem EngineInv.handed_over {s : State} (h : EngineInv s) {i : Instr} {k : Nat} (hr : running s = some (i, k))
    (ha : k ∈ awaitSteps i) (hen : s.en = true) {p : Prim} (hp : nextSess s.cfg s.sess p ≠ none) :
    EngineInv { s with inflight := some p, busy := true } :=
  { h with
    busy_iff := rfl
    busy_enabled := fun _ => hen
    busy_awaited := fun _ => .inr ⟨i, k, hr, ha⟩
    inflight_admitted := by
      intro q hq
      cases hq
      exact hp }

/-- ENABLE (R82). -/
theorem EngineInv.enabled {s : State} (h : EngineInv s) : EngineInv { s with en := true } :=
  { h with
    disabled_idle := nofun
    busy_enabled := fun _ => rfl
    run_accepted := by
      intro w k hfg
      obtain ⟨i, hw, hk, _, hsel⟩ := h.run_accepted w k hfg
      exact ⟨i, hw, hk, fun _ => rfl, hsel⟩ }

/-- DISABLE, outside a session and as the last of its command (R83). -/
theorem EngineInv.disabled {s : State} (h : EngineInv s) (hb : s.busy = false) (hs : s.sess = .s0) (hfg : s.fg = .idle) :
    EngineInv { s with en := false } :=
  { h with
    disabled_idle := fun _ => hs
    busy_enabled := fun hb' => absurd hb' (by simp [hb])
    run_accepted := fun w k hr => absurd hr (by simp [hfg]) }

/-! ### The port, the completion, the entry of the handler -/

/-- The port checks what `run_accepted` asks for, and the guard is still down at micro-step 0. -/
theorem EngineInv.accepted {s : State} (h : EngineInv s) (hp : portFree s = true) {i : Instr}
    (hc : portCheck i s = none) : EngineInv { s with fg := .run (encode i) 0 } := by
  obtain ⟨hb, hi, hg⟩ := h.port_quiet hp
  obtain ⟨hpull, hen, hsel, _⟩ := portCheck_none hc
  exact h.at_step hi hb (decodeWord_encode i) (programLength_pos hpull) hen hsel (by simp [hg])

/-- A completion frees the engine, which was enabled, and so ends the only await there was. -/
theorem EngineInv.completed {s t : State} (h : EngineInv s) (hc : complete s = .next t) : EngineInv t := by
  obtain ⟨p, hp, ⟨_, rfl⟩ | ⟨n, e, d, q, c, a, r, rfl, _, _, hq, hwc, _⟩⟩ := complete_cases hc
  · exact h.environment _ _ _ _ _
  · have hen : s.en = true := h.busy_enabled (by rw [h.busy_iff, hp]; rfl)
    exact { h with
      busy_iff := rfl
      disabled_idle := fun he => absurd he (by simp [hen])
      busy_enabled := nofun
      busy_awaited := nofun
      inflight_admitted := nofun
      ptr_below := by
        obtain rfl | ⟨x, rfl⟩ := hq
        · exact h.ptr_below
        · exact Nat.mod_lt _ s.cfg.array_size.1
      wcnt_le := by
        obtain rfl | hle := hwc
        · exact h.wcnt_le
        · exact hle }

/-- The handler is entered over a foreground that may await, but with the guard down. -/
theorem EngineInv.entered {s : State} (h : EngineInv s) (he : entryEnabled s = true) : EngineInv (enterHandler s) := by
  obtain ⟨_, hi, hg⟩ := (entryEnabled_iff s).mp he
  exact { h with
    busy_awaited := fun hb => .inr (h.busy_in_foreground hb (by simp [hi]))
    isr_position := fun _ => Nat.zero_le _
    guard_inside := fun hg' => absurd hg' (by simp [hg]) }

/-! ### The handler (R107) -/

/-- The handler moves on from a micro-step that awaits nothing in flight. -/
theorem EngineInv.handler_moved {s : State} (h : EngineInv s) (hi : s.inIsr = true)
    (h3 : s.isrpc = 3 → s.busy = false) {j d : Nat} (hj : j ≤ 9) (hd : d < s.cfg.ticksPerSample) (p : Word) (v : Byte)
    (tr : List Event) :
    EngineInv { s with isrpc := j, div := d, pos := p, duty := v, trace := tr } :=
  { h with
    busy_awaited := fun hb => .inr (h.busy_in_foreground hb fun _ at3 => absurd hb (by simp [h3 at3]))
    isr_position := fun _ => hj
    guard_inside := fun hg => absurd hg (by simp [h.guard_in_handler hi])
    div_below := hd }

/-- Only micro-step 3 has a primitive of the handler in flight, and only micro-step 2 hands one over. -/
theorem EngineInv.handled {s t : State} (h : EngineInv s) (hi : s.inIsr = true) (m : HandlerMove s t) : EngineInv t := by
  cases m with
  | branched at1 j target moved =>
    subst moved
    exact h.handler_moved hi (by omega) (by omega) h.div_below _ _ _
  | framing _ _ raised | protocol _ _ _ raised =>
    subst raised
    exact h.environment _ _ _ _ _
  | issued at2 free admitted moved =>
    subst moved
    have hen : s.en = true := by
      by_contra he
      have hs := h.disabled_idle (by simpa using he)
      simp [hs, nextSess] at admitted
    exact { h with
      busy_iff := rfl
      busy_enabled := fun _ => hen
      busy_awaited := fun _ => .inl ⟨hi, rfl⟩
      inflight_admitted := by
        intro q hq
        cases hq
        exact admitted
      isr_position := fun _ => by simp
      guard_inside := h.guard_inside }
  | spun _ _ same => exact same ▸ h
  | waited _ free moved =>
    subst moved
    exact h.handler_moved hi (fun _ => free) (by omega) h.div_below _ _ _
  | counted at4 moved =>
    subst moved
    exact h.handler_moved hi (by omega) (by omega) h.div_below _ _ _
  | wroteDuty from5 _ v moved =>
    subst moved
    exact h.handler_moved hi (by omega) (by omega) h.div_below _ _ _
  | divided at8 moved =>
    subst moved
    exact h.handler_moved hi (by omega) (by omega) (Nat.mod_lt _ s.cfg.ticks_pos) _ _ _
  | left at9 moved =>
    subst moved
    exact { h with
      busy_awaited := fun hb => .inr (h.busy_in_foreground hb (by omega))
      isr_position := nofun
      guard_inside := fun hg => absurd hg (by simp [h.guard_in_handler hi]) }

/-! ### The foreground (R22, R23) -/

/-- A micro-step that is no `issue` and no `await` leaves the guard up exactly where R92 has it at the next one. -/
theorem Writes.guard_iff {i : Instr} {w : Word} {k : Nat} {s t : State} (wr : Writes i w k s t)
    (hg : s.guard = true ↔ s.cfg.guardMode = .explicit ∧ takesGuard i = true ∧ 1 ≤ k) :
    t.guard = true ↔ s.cfg.guardMode = .explicit ∧ takesGuard i = true ∧ k + 1 < programLength i := by
  by_cases ht : takesGuard i = true
  · by_cases hk : k = 0
    · have long : k + 1 < programLength i := by
        cases i <;> simp_all [takesGuard, programLength]
      have down : s.guard = false := by simpa [hk] using hg
      simp [wr.guard_on ht hk, guardTaken, down, ht, long]
    · obtain ⟨same, more⟩ | ⟨_, last, down⟩ | ⟨_, first, _⟩ := wr.guard
      · rw [same, hg]
        simp [more ht, Nat.one_le_iff_ne_zero, hk]
      · simp [down, last]
      · exact absurd first hk
  · obtain ⟨same, _⟩ | ⟨takes, _⟩ | ⟨takes, _⟩ := wr.guard
    · rw [same, hg]
      simp [ht]
    · exact absurd takes ht
    · exact absurd takes ht

/-- A register write is made with no primitive in flight: first the position and the guard move, then `EN`, then `DIV`. -/
theorem EngineInv.wrote {s t : State} (h : EngineInv s) (hi : s.inIsr = false) {w : Word} {k : Nat} {i : Instr}
    (hfg : s.fg = .run w k) (hw : decodeWord w = .ok i) (hn : k ∉ awaitSteps i) (wr : Writes i w k s t) :
    EngineInv t := by
  have hr := running_of_run hfg hw
  obtain ⟨hk, hen, hsel⟩ := h.running_accepted hfg hw
  have hb : s.busy = false := by
    refine Bool.eq_false_iff.mpr fun hb => ?_
    obtain ⟨i', k', hr', ha⟩ := h.busy_in_foreground hb (by simp [hi])
    obtain ⟨rfl, rfl⟩ : i = i' ∧ k = k' := by simpa [hr] using hr'
    exact hn ha
  have hg := wr.guard_iff (h.guard_iff hr)
  have moved : EngineInv { s with fg := t.fg, guard := t.guard } := by
    obtain next | ⟨skip, rfl, _, n, rfl⟩ := wr.fg
    · rw [next]
      exact h.at_next hi hb hfg hw hg
    · rw [skip]
      exact h.at_step hi hb hw (by simp [programLength]) hen hsel (by simpa [programLength] using hg)
  have switched : EngineInv { s with fg := t.fg, guard := t.guard, en := t.en } := by
    obtain same | ⟨rfl, set⟩ | ⟨rfl, outside, cleared⟩ := wr.en
    · rw [same]; exact moved
    · rw [set]; exact moved.enabled
    · have left : t.fg = .idle := by
        obtain next | ⟨_, _, _, n, hsel⟩ := wr.fg
        · rw [next, nextPosition_of_last w (by simp [programLength] at hk ⊢; exact hk)]
        · cases hsel
      rw [cleared]; exact moved.disabled hb outside left
  rw [wr.frame]
  exact { switched with
    div_below := by
      obtain same | ⟨zero, _⟩ := wr.div
      · exact same ▸ h.div_below
      · exact zero ▸ s.cfg.ticks_pos }

/-- A micro-step of the foreground keeps it in each of its five ways. -/
theorem EngineInv.stepped {s t : State} (h : EngineInv s) (hi : s.inIsr = false) {w : Word} {k : Nat} {i : Instr}
    (hfg : s.fg = .run w k) (hw : decodeWord w = .ok i) (m : ForegroundMove i w k s t) : EngineInv t := by
  obtain ⟨_, hen, _⟩ := h.running_accepted hfg hw
  have hg := h.guard_iff (running_of_run hfg hw)
  cases m with
  | issued p notAwait next moved =>
    obtain ⟨_, hl, needs, inside⟩ := awaitSteps_bounds next
    subst moved
    unfold issueLeaves
    split
    · exact h.environment _ _ _ _ _
    split
    · exact h.environment _ _ _ _ _
    · rename_i free admitted
      have stays : s.guard = true ↔ s.cfg.guardMode = .explicit ∧ takesGuard i = true ∧ k + 1 < programLength i := by
        rw [hg]
        refine and_congr_right fun _ => and_congr_right fun takes => ?_
        have := inside takes
        omega
      have moved := h.at_next hi (by simpa using free) hfg hw stays
      rw [nextPosition_of_lt w hl] at moved
      exact moved.handed_over (running_of_run rfl hw) next (hen needs) admitted
  | spun _ _ same => exact same ▸ h
  | waited await free moved =>
    obtain ⟨_, _, _, inside⟩ := awaitSteps_bounds await
    subst moved
    refine h.at_next hi free hfg hw ?_
    rw [hg]
    refine and_congr_right fun _ => and_congr_right fun takes => ?_
    have := inside takes
    omega
  | disabledInside _ _ _ raised =>
    subst raised
    exact h.environment _ _ _ _ _
  | wrote notAwait writes => exact h.wrote hi hfg hw notAwait writes

/-! ### Every step -/

theorem EngineInv.move {s t : State} (h : EngineInv s) (m : Move s t) : EngineInv t := by
  cases m with
  | environment frame => rw [frame]; exact h.environment _ _ _ _ _
  | accepted i free checked moved => subst moved; exact h.accepted free checked
  | completed _ done => exact h.completed done
  | entered enabled moved => subst moved; exact h.entered enabled
  | handled inside move => exact h.handled inside move
  | stepped outside w k i stands decodes move => exact h.stepped outside stands decodes move

/-- After power-on the block is quiet and its counters are 0 (R42, R141). -/
theorem engineInv_atPowerOn (cfg : Config) {m : Memory} (r : Bool) (n : Nat) (sc : List Turn) (hm : Memory.wf m = true)
    (hb : Memory.below cfg.eepromSize m = true) : EngineInv (State.atPowerOn cfg m r n sc) where
  busy_iff := rfl
  disabled_idle := fun _ => rfl
  busy_enabled := nofun
  busy_awaited := nofun
  inflight_admitted := nofun
  run_accepted := nofun
  isr_position := nofun
  guard_inside := nofun
  guard_taken := nofun
  well_formed := cfg.wf
  ptr_below := Nat.mod_lt _ cfg.array_size.1
  wcnt_le := Nat.zero_le _
  div_below := cfg.ticks_pos
  mem_wf := hm
  mem_below := hb

/-- Every step of every agent keeps the invariant of the bus engine (R80). -/
theorem EngineInv.step_keeps {s t : State} (h : EngineInv s) (hs : step s = .next t) : EngineInv t := by
  obtain ⟨rest, rfl⟩ | ⟨sc, m⟩ := step_power_or_move hs
  · exact engineInv_atPowerOn _ _ _ _ h.mem_wf h.mem_below
  · exact (h.environment sc _ _ _ _).move m

end Sys2Proof.Machine
end

section
/-! PROOFS: every step keeps the invariant of the cursor (spec/10_state.md R19, spec/41_stream_controller.md R91), and the three
invariants hold at reset. -/

namespace Sys2Proof.Machine

/-! ### The window between the two cursor writes -/

theorem betweenLimAndPos_iff {s : State} {i : Instr} {k : Nat} (hr : running s = some (i, k)) :
    betweenLimAndPos s ↔ ∃ n, (i = .openClip n ∧ k = 16) ∨ (i = .select n ∧ k = 23) := by
  simp only [betweenLimAndPos, hr, Option.some.injEq, Prod.mk.injEq, exists_or]

/-- The window lies inside a guarded command (R92). -/
theorem EngineInv.guard_between {s : State} (h : EngineInv s) (he : s.cfg.guardMode = .explicit)
    (hw : betweenLimAndPos s) : s.guard = true := by
  obtain ⟨n, hr⟩ | ⟨n, hr⟩ := hw
  · exact h.guard_taken he _ _ hr rfl (by decide)
  · exact h.guard_taken he _ _ hr rfl (by decide)

/-- The write of `LIM` leads into the window. -/
theorem Writes.between_of_lim {i : Instr} {w : Word} {k : Nat} {s t : State} (wr : Writes i w k s t)
    (hw : decodeWord w = .ok i) {n : Byte} (at_lim : (i = .openClip n ∧ k = 15) ∨ (i = .select n ∧ k = 22)) :
    betweenLimAndPos t := by
  have next : t.fg = nextPosition i w k := wr.fg.resolve_right fun ⟨_, first, _⟩ => by omega
  obtain ⟨rfl, rfl⟩ | ⟨rfl, rfl⟩ := at_lim
  · exact .inl ⟨n, running_of_run next hw⟩
  · exact .inr ⟨n, running_of_run next hw⟩

/-! ### From the handler's test to its increment (R91, R98) -/

/-- The handler's test lets it on to micro-step 2 only with a sample left, and nothing writes the cursor before the
increment. -/
theorem HandlerMove.pullInRange {s t : State} (m : HandlerMove s t) (hi : s.inIsr = true) (h : PullInRange s) :
    PullInRange t := by
  cases m with
  | branched _ j target moved =>
    subst moved
    intro _ (h2 : 2 ≤ j) (h4 : j ≤ 4)
    obtain rfl | ⟨_, left⟩ | rfl | rfl := target
    · omega
    · exact left
    · omega
    · omega
  | framing _ _ raised | protocol _ _ _ raised => subst raised; exact h
  | issued at2 _ _ moved => subst moved; exact fun _ _ _ => h hi (by omega) (by omega)
  | spun _ _ same => subst same; exact h
  | waited at3 _ moved => subst moved; exact fun _ _ _ => h hi (by omega) (by omega)
  | counted _ moved | wroteDuty _ _ _ moved | divided _ moved =>
    subst moved
    exact fun _ _ h4 => absurd h4 (by simp)
  | left _ moved => subst moved; exact nofun

/-- Every move keeps it, with the guard or without: the cursor has no other writer inside the handler. -/
theorem PullInRange.move {s t : State} (h : PullInRange s) (m : Move s t) : PullInRange t := by
  cases m with
  | environment frame => rw [frame]; exact h
  | accepted i _ _ moved => subst moved; exact h
  | completed _ done => rw [complete_frame done]; exact h
  | entered _ moved => subst moved; exact fun _ h2 => absurd h2 (by simp)
  | handled inside move => exact move.pullInRange inside h
  | stepped outside w k i _ _ move =>
    have still : t.inIsr = false := (congrArg State.inIsr move.frame).trans outside
    exact fun inside => absurd inside (by simp [still])

/-! ### `POS <= LIM` -/

/-- The foreground keeps `POS <= LIM`: `LIM` is written into the window, and `POS` to 0 out of it (R93, R101). -/
theorem ForegroundMove.pos_le_lim {i : Instr} {w : Word} {k : Nat} {s t : State} (m : ForegroundMove i w k s t)
    (hfg : s.fg = .run w k) (hw : decodeWord w = .ok i) (h : s.pos ≤ s.lim ∨ betweenLimAndPos s) :
    t.pos ≤ t.lim ∨ betweenLimAndPos t := by
  have window := betweenLimAndPos_iff (running_of_run hfg hw)
  obtain ⟨_, wr⟩ | ⟨waiting, waits⟩ := m.writes_or_waits
  · obtain ⟨same, before⟩ | ⟨zero, _⟩ := wr.pos
    · have outside : ¬betweenLimAndPos s := by simpa [window, not_or] using before
      obtain keeps | ⟨n, writes⟩ := wr.lim
      · rw [same, keeps]
        exact .inl (h.resolve_right outside)
      · exact .inr (wr.between_of_lim hw writes)
    · rw [zero]
      exact .inl (BitVec.le_def.mpr (Nat.zero_le _))
  · have outside : ¬betweenLimAndPos s := by
      rw [window]
      rintro ⟨n, ⟨rfl, rfl⟩ | ⟨rfl, rfl⟩⟩ <;> simp [awaitSteps] at waiting
    rw [waits]
    exact .inl (h.resolve_right outside)

/-- The handler keeps it: what it counts was left when it looked (R91). -/
theorem HandlerMove.pos_le_lim {s t : State} (m : HandlerMove s t) (hi : s.inIsr = true) (hp : PullInRange s)
    (h : s.pos ≤ s.lim ∨ betweenLimAndPos s) : t.pos ≤ t.lim ∨ betweenLimAndPos t := by
  obtain same | ⟨at4, counted⟩ := m.pos
  · rw [m.frame, same]
    exact h
  · have left : s.pos < s.lim := hp hi (by omega) (by omega)
    have lim : t.lim = s.lim := (congrArg State.lim m.frame :)
    rw [counted, lim]
    exact .inl (by bv_omega)

/-- Every move keeps the cursor's invariant; a command is accepted with the guard down, so outside the window. -/
theorem CursorInv.move {s t : State} (h : CursorInv s) (m : Move s t) : CursorInv t where
  engine := h.engine.move m
  guarded := m.array_config.2 ▸ h.guarded
  pos_le_lim := by
    cases m with
    | environment frame => rw [frame]; exact h.pos_le_lim
    | accepted i free _ moved =>
      obtain ⟨_, _, down⟩ := h.engine.port_quiet free
      have outside : ¬betweenLimAndPos s := fun hw => by simp [h.engine.guard_between h.guarded hw] at down
      subst moved
      exact .inl (h.pos_le_lim.resolve_right outside)
    | completed _ done => rw [complete_frame done]; exact h.pos_le_lim
    | entered _ moved => subst moved; exact h.pos_le_lim
    | handled inside move => exact move.pos_le_lim inside h.pull_in_range h.pos_le_lim
    | stepped _ w k i stands decodes move => exact move.pos_le_lim stands decodes h.pos_le_lim
  pull_in_range := h.pull_in_range.move m

/-- The cursor is 0 after power-on. -/
theorem cursorInv_atPowerOn {cfg : Config} {m : Memory} (r : Bool) (n : Nat) (sc : List Turn)
    (h : EngineInv (State.atPowerOn cfg m r n sc)) (hg : cfg.guardMode = .explicit) :
    CursorInv (State.atPowerOn cfg m r n sc) where
  engine := h
  guarded := hg
  pos_le_lim := .inl (BitVec.le_def.mpr (Nat.zero_le _))
  pull_in_range := nofun

theorem CursorInv.step_keeps {s t : State} (h : CursorInv s) (hs : step s = .next t) : CursorInv t := by
  have he := h.engine.step_keeps hs
  obtain ⟨rest, rfl⟩ | ⟨sc, m⟩ := step_power_or_move hs
  · exact cursorInv_atPowerOn _ _ _ he h.guarded
  · have h' : CursorInv { s with script := sc } := { h with engine := h.engine.environment sc _ _ _ _ }
    exact h'.move m

/-- Settles O53: power-on, the foreground and the handler each keep it; with the guard down the foreground is outside the
window. -/
theorem cursorInvariantKept : Obligations.CursorInvariantKept := by
  refine ⟨fun s t => CursorInv.step_keeps, fun s h down => h.pos_le_lim.resolve_right fun hw => ?_⟩
  simp [h.engine.guard_between h.guarded hw] at down

/-! ### Reset (R42) -/

theorem engineInv_reset : EngineInv State.reset := engineInv_atPowerOn _ _ _ _ rfl rfl

/-- At reset no session is open and the host makes no move. -/
theorem selectOnlyInv_reset : SelectOnlyInv State.reset where
  engine := engineInv_reset
  guarded := rfl
  no_fault := rfl
  script_disciplined := nofun
  running_disciplined := nofun
  outside := fun _ => ⟨rfl, nofun⟩
  inside := nofun
  pulling := nofun
  pull_in_range := nofun

/-- Settles O50: reset is a power-on of the reference configuration, whose guard is explicit. -/
theorem invariantsHoldAtReset : Obligations.InvariantsHoldAtReset :=
  ⟨engineInv_reset, cursorInv_atPowerOn _ _ _ engineInv_reset rfl, selectOnlyInv_reset⟩

end Sys2Proof.Machine
end

section
/-! PROOFS of the statements on the memory (spec/20_memory.md): no step writes the array, and how each of the two
oracles answers a byte sent and a byte read. -/

namespace Sys2Proof.Machine

/-! ### The array and the configuration (R35, R50, R59) -/

/-- A power-on keeps the array as provisioned and the configuration; no other move writes them. -/
theorem step_array_config {s t : State} (h : step s = .next t) : t.eeprom = s.eeprom ∧ t.cfg = s.cfg := by
  obtain ⟨rest, rfl⟩ | ⟨sc, m⟩ := step_power_or_move h
  · exact ⟨rfl, rfl⟩
  · exact m.array_config

/-- Settles O43: the array and the configuration are the same after every step. -/
theorem arrayAndConfigurationAreNeverWritten : Obligations.ArrayAndConfigurationAreNeverWritten := by
  intro s t h
  obtain ⟨array, config⟩ := step_array_config h
  rw [array]
  exact ⟨fun _ => rfl, rfl, config⟩

/-! ### The session a byte leads to (R79) -/

@[simp] theorem nextSess_devWr (cfg : Config) : nextSess cfg .s1 (.send cfg.devWr) = some .sw := if_pos rfl

@[simp] theorem nextSess_devRd (cfg : Config) : nextSess cfg .s1 (.send cfg.devRd) = some .sr := by
  simp [nextSess, cfg.devices_differ.symm]

@[simp] theorem nextSess_sw_send (cfg : Config) (b : Byte) : nextSess cfg .sw (.send b) = some .sw := rfl

/-- Only a read that is acknowledged keeps the peer streaming. -/
theorem nextSess_sr_read (cfg : Config) (k : Ack) :
    nextSess cfg .sr (.read k) = some (if k = .ack then .sr else .sn) := by
  cases k <;> rfl

/-! ### Whose answer a completion is (R55, R78) -/

theorem complete_send_reference {s : State} {b : Byte} {n : Sess} (hp : s.inflight = some (.send b))
    (ho : s.cfg.oracle = .reference) (hn : nextSess s.cfg s.sess (.send b) = some n) :
    complete s = peerTakes b n s := by
  simp only [complete, hp, completeSend, hn, ho]

theorem complete_send_unconstrained {s : State} {b : Byte} {n : Sess} (hp : s.inflight = some (.send b))
    (ho : s.cfg.oracle = .unconstrained) (hn : nextSess s.cfg s.sess (.send b) = some n) :
    complete s = .next (sent b (Config.drawnAck s.draws) n { s with draws := s.draws + 1 }) := by
  simp only [complete, hp, completeSend, hn, ho]

theorem complete_read_reference {s : State} {k : Ack} {n : Sess} (hp : s.inflight = some (.read k))
    (ho : s.cfg.oracle = .reference) (hn : nextSess s.cfg s.sess (.read k) = some n) :
    complete s = .next (received (memRead s s.ptr) k n { s with ptr := (s.ptr + 1) % s.cfg.eepromSize }) := by
  simp only [complete, hp, completeRead, hn, ho]

theorem complete_read_unconstrained {s : State} {k : Ack} {n : Sess} (hp : s.inflight = some (.read k))
    (ho : s.cfg.oracle = .unconstrained) (hn : nextSess s.cfg s.sess (.read k) = some n) :
    complete s = .next (received (Config.drawnByte s.draws) k n { s with draws := s.draws + 1 }) := by
  simp only [complete, hp, completeRead, hn, ho]

/-! ### The reference peer (R50 to R53) -/

/-- Outside a write phase the peer only acknowledges. -/
theorem peerTakes_outside {b : Byte} {n : Sess} {s : State} (h : s.sess ≠ .sw) :
    peerTakes b n s = .next (sent b .ack n s) := if_neg h

theorem peerTakes_first {b : Byte} {n : Sess} {s : State} (h : s.sess = .sw) (hc : s.wcnt = 0) :
    peerTakes b n s = .next (sent b .ack n { s with ah := b, wcnt := 1 }) := by
  simp only [peerTakes, h, hc, if_true]

theorem peerTakes_second {b : Byte} {n : Sess} {s : State} (h : s.sess = .sw) (hc : s.wcnt = 1) :
    peerTakes b n s = .next (sent b .ack n { s with ptr := peerAddress s.cfg s.ah b, wcnt := 2 }) := by
  simp only [peerTakes, h, hc, if_true]

/-- A third byte of a write phase has no meaning (R53). -/
theorem peerTakes_third {b : Byte} {n : Sess} {s : State} (h : s.sess = .sw) (hc : 2 ≤ s.wcnt) :
    peerTakes b n s = .refused .unmodelledPeerWrite := by
  obtain ⟨c, hc⟩ := Nat.exists_eq_add_of_le' hc
  simp only [peerTakes, h, hc, if_true]

/-- The two address bytes are the digits of the address in base 256 (R51). -/
theorem peerAddress_eq (cfg : Config) (hi lo : Byte) :
    peerAddress cfg hi lo = (hi.toNat * 256 + lo.toNat) % cfg.eepromSize := by
  rw [peerAddress, BitVec.toNat_append, ← Nat.shiftLeft_add_eq_or_of_lt lo.isLt, Nat.shiftLeft_eq]

/-- Settles O30: the session says which kind of byte is due, and in a write phase the count says which of its bytes. -/
theorem referencePeerTakesBytes : Obligations.ReferencePeerTakesBytes := by
  intro s b hp ho sentIn
  refine ⟨?deviceWrite, ?deviceRead, ?first, ?second, ?third⟩
  case deviceWrite =>
    rintro hs rfl
    rw [complete_send_reference hp ho (n := .sw) (by simp [hs]), peerTakes_outside (by simp [hs])]
    rfl
  case deviceRead =>
    rintro hs - rfl
    rw [complete_send_reference hp ho (n := .sr) (by simp [hs]), peerTakes_outside (by simp [hs])]
    rfl
  all_goals
    intro hs hc
    rw [complete_send_reference hp ho (n := .sw) (by simp [hs])]
  case first =>
    rw [peerTakes_first hs hc]
    rfl
  case second =>
    rw [peerTakes_second hs hc, peerAddress_eq]
    rfl
  case third => exact peerTakes_third hs hc

/-- A pointer inside the array is read as it is (R43, R50). -/
theorem memRead_of_lt {s : State} {a : Nat} (h : a < s.cfg.eepromSize) : memRead s a = Memory.read s.eeprom a := by
  rw [memRead, Nat.mod_eq_of_lt h]

/-- From inside the array the pointer advances by one, and wraps at the last byte (R52). -/
theorem advance_mod_of_lt {p size : Nat} (h : p < size) : (p + 1) % size = if p + 1 = size then 0 else p + 1 := by
  split
  · rename_i last
    rw [last, Nat.mod_self]
  · exact Nat.mod_eq_of_lt (by omega)

/-- Settles O31: the peer answers with the byte at its pointer, and the acknowledge decides the session alone. -/
theorem referencePeerSuppliesBytes : Obligations.ReferencePeerSuppliesBytes := by
  intro s k hp ho hs inside
  rw [complete_read_reference hp ho (by rw [hs, nextSess_sr_read]), memRead_of_lt inside, advance_mod_of_lt inside]
  rfl

/-! ### The unconstrained oracle (R55, R81) -/

/-- Settles O32: the two completions answered by the draw. -/
theorem unconstrainedOracleDraws : Obligations.UnconstrainedOracleDraws :=
  fun _ _ ho => ⟨fun _ hp hn => complete_send_unconstrained hp ho hn,
    fun _ hp hn => complete_read_unconstrained hp ho hn⟩

end Sys2Proof.Machine
end

section
/-! PROOFS of the statements on the command word (spec/30_encoding.md): the decoder and the encoder, the illegal words, and the
checks at the free port. -/

namespace Sys2Proof

/-! ### The two fields of a word (R62) -/

@[simp] theorem opField_commandWord (op arg : Byte) : opField (commandWord op arg) = op :=
  BitVec.extractLsb'_append_eq_left

@[simp] theorem argField_commandWord (op arg : Byte) : argField (commandWord op arg) = arg :=
  BitVec.extractLsb'_append_eq_right

/-- A word is its two fields. -/
theorem commandWord_fields (w : Word) : commandWord (opField w) (argField w) = w :=
  (BitVec.extractLsb'_append_extractLsb'_eq_extractLsb' rfl).trans BitVec.extractLsb'_eq_self

theorem eq_commandWord_iff (w : Word) (op arg : Byte) : w = commandWord op arg ↔ opField w = op ∧ argField w = arg := by
  constructor
  · rintro rfl
    simp
  · rintro ⟨rfl, rfl⟩
    exact (commandWord_fields w).symm

/-- A mask selects in each field on its own. -/
theorem and_commandWord_iff (w : Word) (m n op arg : Byte) :
    w &&& commandWord m n = commandWord op arg ↔ opField w &&& m = op ∧ argField w &&& n = arg := by
  have hop : opField (w &&& commandWord m n) = opField w &&& m :=
    BitVec.extractLsb'_and.trans (congrArg (opField w &&& ·) (opField_commandWord m n))
  have harg : argField (w &&& commandWord m n) = argField w &&& n :=
    BitVec.extractLsb'_and.trans (congrArg (argField w &&& ·) (argField_commandWord m n))
  rw [eq_commandWord_iff, hop, harg]

/-- An operand byte with bits 7 to 1 clear is the byte of its bit 0 (R63). -/
theorem oneBitArg_iff (a : Byte) : a &&& 0xFE#8 = 0#8 ↔ oneBitArg (a.getLsbD 0) = a := by
  revert a
  decide

theorem getLsbD_argField (w : Word) : (argField w).getLsbD 0 = w.getLsbD 0 := by
  simp [argField]

@[simp] theorem bitOfAck_ackOfBit (b : Bool) : bitOfAck (ackOfBit b) = b := by
  cases b <;> rfl

/-! ### The rows of the opcode map (R63, R64) -/

/-- A command without operand: the whole word is fixed. -/
theorem commandWord_of_whole_row (op : Byte) {w : Word} (h : w &&& 0xFFFF#16 = commandWord op 0#8) :
    commandWord op 0#8 = w :=
  h.symm.trans BitVec.and_allOnes

/-- A command with a byte operand: the operand is the field `arg`. -/
theorem commandWord_of_byte_row (op : Byte) {w : Word} (h : w &&& commandWord 0xFF#8 0#8 = commandWord op 0#8) :
    commandWord op (argField w) = w := by
  have hop : opField w = op := BitVec.and_allOnes.symm.trans ((and_commandWord_iff ..).mp h).1
  rw [← hop, commandWord_fields]

/-- A command with a one-bit operand: the rest of the field `arg` is clear. -/
theorem commandWord_of_bit_row (op : Byte) {w : Word} (h : w &&& commandWord 0xFF#8 0xFE#8 = commandWord op 0#8) :
    commandWord op (oneBitArg (w.getLsbD 0)) = w := by
  obtain ⟨hop, harg⟩ := (and_commandWord_iff ..).mp h
  have hop : opField w = op := BitVec.and_allOnes.symm.trans hop
  rw [← getLsbD_argField, (oneBitArg_iff _).mp harg, ← hop, commandWord_fields]

/-- Row by row, the command a word is read as has that word. -/
theorem encode_build : ∀ r ∈ opcodeMap, ∀ w : Word, w &&& r.mask = r.bits → encode (r.build w) = w := by
  have read_row (w : Word) (h : w &&& 0xFFFE#16 = 0x0700#16) : encode (.read (ackOfBit (w.getLsbD 0))) = w := by
    rw [encode, bitOfAck_ackOfBit]
    exact commandWord_of_bit_row 0x07#8 h
  simp only [opcodeMap, List.forall_mem_cons, List.not_mem_nil, false_imp_iff, implies_true, and_true]
  exact ⟨fun _ => commandWord_of_whole_row 0x01#8, fun _ => commandWord_of_whole_row 0x02#8,
    fun _ => commandWord_of_whole_row 0x03#8, fun _ => commandWord_of_whole_row 0x04#8,
    fun _ => commandWord_of_whole_row 0x05#8, fun _ => commandWord_of_byte_row 0x06#8,
    read_row, fun _ => commandWord_of_byte_row 0x08#8,
    fun _ => commandWord_of_whole_row 0x09#8, fun _ => commandWord_of_whole_row 0x0A#8,
    fun _ => commandWord_of_byte_row 0x0B#8, fun _ => commandWord_of_bit_row 0x0C#8⟩

/-- A word that decodes does so by a row it belongs to (R64). -/
theorem decodeWord_row {w : Word} {i : Instr} (h : decodeWord w = .ok i) :
    ∃ r ∈ opcodeMap, w &&& r.mask = r.bits ∧ r.build w = i := by
  unfold decodeWord at h
  split at h
  · rename_i r hr
    cases h
    exact ⟨r, List.mem_of_find?_eq_some hr, by simpa using List.find?_some hr, rfl⟩
  · cases h

/-- Settles O1: each command's word lies in the row it is read by, whatever the operand. -/
theorem decodeOfEncode : Obligations.DecodeOfEncode := Machine.decodeWord_encode

/-- Settles O2: the row a word decodes by fixes every bit of it that is no operand bit. -/
theorem encodeOfDecode : Obligations.EncodeOfDecode := by
  intro w i h
  obtain ⟨r, hr, hw, rfl⟩ := decodeWord_row h
  exact encode_build r hr w hw

/-- The decoder reads the words of the commands, and no other word. -/
theorem decodeWord_eq_ok_iff (w : Word) (i : Instr) : decodeWord w = .ok i ↔ encode i = w :=
  ⟨encodeOfDecode w i, fun h => h ▸ decodeOfEncode i⟩

/-- What the decoder reads from a command's word as the opcode table gives it. -/
theorem decodeTableWord_encode (i : Instr) : decodeTableWord 16 (encode i).toNat = some i := by
  simp [decodeTableWord, (encode i).isLt, Machine.decodeWord_encode]

/-- Settles O3: each word listed is a command's own word, or in no row; two rows differ in a bit both fix. -/
theorem tableWordsDecode : Obligations.TableWordsDecode :=
  ⟨decodeTableWord_encode .enable, decodeTableWord_encode .start, decodeTableWord_encode (.send 0xA0#8),
    decodeTableWord_encode (.read .ack), decodeTableWord_encode (.read .nack), decodeTableWord_encode (.openClip 3#8),
    decodeTableWord_encode .pull, decodeTableWord_encode (.select 0xFF#8), decodeTableWord_encode (.tickctl true),
    by decide, by decide, by decide⟩

/-! ### The illegal words (R66) -/

theorem oneBitArg_and (b : Bool) : oneBitArg b &&& 0xFE#8 = 0#8 := by
  cases b <;> rfl

/-- The words of the commands, by their two fields: no operand, a byte operand, a one-bit operand. -/
theorem exists_encode_iff (op arg : Byte) : (∃ i, encode i = commandWord op arg) ↔
    (op ∈ [0x01#8, 0x02#8, 0x03#8, 0x04#8, 0x05#8, 0x09#8, 0x0A#8] ∧ arg = 0#8) ∨
      op ∈ [0x06#8, 0x08#8, 0x0B#8] ∨ (op ∈ [0x07#8, 0x0C#8] ∧ arg &&& 0xFE#8 = 0#8) := by
  constructor
  · rintro ⟨i, h⟩
    obtain ⟨rfl, rfl⟩ := (eq_commandWord_iff _ _ _).mp h
    cases i <;> simp [encode, oneBitArg_and]
  · simp only [List.mem_cons, List.not_mem_nil, or_false]
    rintro (⟨whole, rfl⟩ | byte | ⟨bit, harg⟩)
    · obtain rfl | rfl | rfl | rfl | rfl | rfl | rfl := whole
      exacts [⟨.enable, rfl⟩, ⟨.disable, rfl⟩, ⟨.start, rfl⟩, ⟨.rstart, rfl⟩, ⟨.stop, rfl⟩, ⟨.close, rfl⟩, ⟨.pull, rfl⟩]
    · obtain rfl | rfl | rfl := byte
      exacts [⟨.send arg, rfl⟩, ⟨.openClip arg, rfl⟩, ⟨.select arg, rfl⟩]
    · rw [← (oneBitArg_iff arg).mp harg]
      obtain rfl | rfl := bit
      exacts [⟨.read (ackOfBit (arg.getLsbD 0)), by rw [encode, bitOfAck_ackOfBit]⟩, ⟨.tickctl (arg.getLsbD 0), rfl⟩]

/-- Every value of `op` is of one kind: reserved, or of a command with no operand, a byte operand or a one-bit one. -/
theorem opcode_kinds (op : Byte) :
    let reserved := op = 0x00#8 ∨ 0x0D#8 ≤ op
    let whole := op ∈ [0x01#8, 0x02#8, 0x03#8, 0x04#8, 0x05#8, 0x09#8, 0x0A#8]
    let byte := op ∈ [0x06#8, 0x08#8, 0x0B#8]
    let bit := op ∈ [0x07#8, 0x0C#8]
    (reserved ∧ ¬whole ∧ ¬byte ∧ ¬bit) ∨ (¬reserved ∧ whole ∧ ¬byte ∧ ¬bit) ∨ (¬reserved ∧ ¬whole ∧ byte ∧ ¬bit) ∨
      (¬reserved ∧ ¬whole ∧ ¬byte ∧ bit) := by
  revert op
  decide

theorem and_0xFE_eq_zero_iff (a : Byte) : a &&& 0xFE#8 = 0#8 ↔ a.extractLsb' 1 7 = 0#7 := by
  revert a
  decide

/-- A word is illegal when its fields are those of no command's word, which the kind of `op` decides (R66). -/
theorem decodeWord_illegal_iff (w : Word) : (∀ i, decodeWord w ≠ .ok i) ↔
    (opField w = 0x00#8 ∨ 0x0D#8 ≤ opField w ∨
      (opField w ∈ [0x01#8, 0x02#8, 0x03#8, 0x04#8, 0x05#8, 0x09#8, 0x0A#8] ∧ argField w ≠ 0#8) ∨
      (opField w ∈ [0x07#8, 0x0C#8] ∧ (argField w).extractLsb' 1 7 ≠ 0#7)) := by
  have legal := exists_encode_iff (opField w) (argField w)
  rw [commandWord_fields] at legal
  simp only [ne_eq, decodeWord_eq_ok_iff, ← not_exists, legal, ← and_0xFE_eq_zero_iff, ← or_assoc (a := opField w = _)]
  obtain ⟨reserved, whole, byte, bit⟩ | ⟨reserved, whole, byte, bit⟩ | ⟨reserved, whole, byte, bit⟩ |
    ⟨reserved, whole, byte, bit⟩ := opcode_kinds (opField w) <;>
    simp only [reserved, whole, byte, bit] <;> simp

end Sys2Proof

namespace Sys2Proof.Machine

/-- An illegal word is dropped by the decoder (R66, R67 check 1). -/
theorem writeCommand_illegal {w : Word} (s : State) (hw : ∀ i, decodeWord w ≠ .ok i) : writeCommand w s = .next s := by
  unfold writeCommand
  split
  · exact absurd ‹_› (hw _)
  · rfl

/-- A legal word is run by exec (R61, R67 check 1). -/
theorem writeCommand_legal {w : Word} {i : Instr} (s : State) (hw : decodeWord w = .ok i) :
    writeCommand w s = exec i s := by
  simp only [writeCommand, hw]

/-- Settles O4: the illegal words are those of no command, and at the free port the host's turn drops one. -/
theorem illegalWordsAreDropped : Obligations.IllegalWordsAreDropped := by
  refine ⟨decodeWord_illegal_iff, fun w s rest hw hf hs hp he => ?_⟩
  rw [step_of_host_ready hf hs (hostReady_write 0 w hp he)]
  exact writeCommand_illegal _ hw

/-! ### The checks at the free port (R67) -/

/-- Only ENABLE, DISABLE and TICKCTL pass without `EN`. -/
theorem needsEngine_eq_false_iff (i : Instr) :
    needsEngine i = false ↔ i = .enable ∨ i = .disable ∨ ∃ e, i = .tickctl e := by
  cases i <;> simp [needsEngine]

/-- Only OPEN and SELECT name an entry, and fail check 4 beyond the table. -/
theorem selectorInTable_eq_false_iff (cfg : Config) (i : Instr) :
    selectorInTable cfg i = false ↔ ∃ n, (i = .openClip n ∨ i = .select n) ∧ cfg.clips.length ≤ n.toNat := by
  cases i <;> simp [selectorInTable, selector]
  all_goals exact Iff.rfl

/-- At the free port exec is acceptance (R61). -/
theorem exec_at_port (i : Instr) {s : State} (hi : s.inIsr = false) (hfg : s.fg = .idle) :
    exec i s = .next (accept i s) := by
  rw [exec_foreground i hi, command_at_port hi hfg]

/-- A command that fails a check leaves the state as it was (R67, R114). -/
theorem exec_refused {i : Instr} {s : State} {r : PortRefusal} (hi : s.inIsr = false) (hfg : s.fg = .idle)
    (hc : portCheck i s = some r) : exec i s = .next s := by
  simp only [exec_at_port i hi hfg, accept, hc]

/-- A command that passes every check is accepted (R61, R67). -/
theorem exec_accepted {i : Instr} {s : State} (hi : s.inIsr = false) (hfg : s.fg = .idle)
    (hc : portCheck i s = none) : exec i s = .next { s with fg := .run (encode i) 0 } := by
  simp only [exec_at_port i hi hfg, accept, hc]

/-- Check 2: PULL. -/
theorem portCheck_pull (s : State) : portCheck .pull s = some .wrongContext := rfl

/-- Check 3. -/
theorem portCheck_notEnabled {i : Instr} {s : State} (hp : i ≠ .pull) (hn : needsEngine i = true)
    (he : s.en = false) : portCheck i s = some .notEnabled := by
  simp [portCheck, hp, hn, he]

/-- Check 4. -/
theorem portCheck_selRange {i : Instr} {s : State} (hp : i ≠ .pull) (he : needsEngine i = false ∨ s.en = true)
    (hs : selectorInTable s.cfg i = false) : portCheck i s = some .selRange := by
  obtain he | he := he <;> simp [portCheck, hp, he, hs]

/-- Check 5. -/
theorem portCheck_notOpen {s : State} (he : s.en = true) (ho : s.openf = false) :
    portCheck .close s = some .notOpen := by
  simp [portCheck, he, ho, selectorInTable, selector]

/-- The converse of `portCheck_none`. -/
theorem portCheck_passed {i : Instr} {s : State} (hp : i ≠ .pull) (he : needsEngine i = false ∨ s.en = true)
    (hs : selectorInTable s.cfg i = true) (ho : i = .close → s.openf = true) : portCheck i s = none := by
  obtain he | he := he <;> simpa [portCheck, hp, he, hs] using ho

/-- Settles O6: each check has its refusal, and a refused command is dropped. -/
theorem portChecksInOrder : Obligations.PortChecksInOrder := by
  intro i s hi hfg
  simp only [← needsEngine_eq_false_iff, ← selectorInTable_eq_false_iff, Bool.not_eq_false]
  refine ⟨fun w hw => writeCommand_illegal s hw, fun w hw => writeCommand_legal s hw,
    ?wrongContext, ?notEnabled, ?selRange, ?notOpen, ?accepted⟩
  case accepted =>
    intro hp he hs ho
    have hc := portCheck_passed hp he hs ho
    exact ⟨hc, exec_accepted hi hfg hc⟩
  case wrongContext =>
    rintro rfl
    exact ⟨portCheck_pull s, exec_refused hi hfg (portCheck_pull s)⟩
  case notEnabled =>
    intro hp hn he
    have hc := portCheck_notEnabled hp hn he
    exact ⟨hc, exec_refused hi hfg hc⟩
  case selRange =>
    intro he hs
    have hp : i ≠ .pull := by
      rintro rfl
      cases hs
    have hc := portCheck_selRange hp he hs
    exact ⟨hc, exec_refused hi hfg hc⟩
  case notOpen =>
    rintro rfl he ho
    have hc := portCheck_notOpen he ho
    exact ⟨hc, exec_refused hi hfg hc⟩

end Sys2Proof.Machine
end

section
/-! PROOFS: one micro-step of a command, and the statements on the bus engine (spec/40_bus_engine.md): its invariant, its
session grammar and its completion, ENABLE and DISABLE, and the five primitive commands step by step. -/

namespace Sys2Proof.Machine

/-! ### The invariant of the engine (R80) -/

/-- Settles O51: a power-on restores the invariant, and every kind of move keeps it. -/
theorem engineInvariantKept : Obligations.EngineInvariantKept := fun _ _ => EngineInv.step_keeps

/-! ### The session grammar (R79) -/

/-- The sessions in which the grammar admits a primitive. -/
def AdmittedIn (cfg : Config) (x : Sess) : Prim → Prop
  | .start => x = .s0
  | .rstart => x = .sw
  | .stop => x = .sn
  | .send b => x = .sw ∨ (x = .s1 ∧ (b = cfg.devWr ∨ b = cfg.devRd))
  | .read _ => x = .sr

/-- After a start the byte sent says whether the peer is addressed for write or for read. -/
theorem nextSess_s1_send_iff (cfg : Config) (b : Byte) (y : Sess) :
    nextSess cfg .s1 (.send b) = some y ↔ (b = cfg.devWr ∧ y = .sw) ∨ (b = cfg.devRd ∧ y = .sr) := by
  by_cases hw : b = cfg.devWr
  · simp [hw, cfg.devices_differ, eq_comm]
  · simp [nextSess, hw, eq_comm]

/-- Settles O28: every cell is read off the table, and the two of a byte after a start are told apart by the byte. -/
theorem sessionGrammarTable : Obligations.SessionGrammarTable := by
  intro cfg x y p
  cases p with
  | start | rstart | stop => cases x <;> simp [nextSess, eq_comm]
  | read k => cases x <;> cases k <;> simp [nextSess, eq_comm]
  | send b =>
    cases x with
    | s1 => simp [nextSess_s1_send_iff]
    | s0 | sw | sr | sn => simp [nextSess, eq_comm]

/-- A cell of the table is empty exactly outside the sessions in which the primitive is admitted. -/
theorem nextSess_eq_none_iff (cfg : Config) (x : Sess) (p : Prim) : nextSess cfg x p = none ↔ ¬AdmittedIn cfg x p := by
  cases p with
  | start | rstart | stop => cases x <;> simp [nextSess, AdmittedIn]
  | read k => cases x <;> cases k <;> simp [nextSess, AdmittedIn]
  | send b =>
    cases x with
    | s1 => by_cases hw : b = cfg.devWr <;> simp [nextSess, AdmittedIn, hw]
    | s0 | sw | sr | sn => simp [nextSess, AdmittedIn]

/-! ### The completion (R78) -/

/-- A start begins a new write phase, of which the reference peer alone keeps the count (R51). -/
theorem peerSeesStart_eq (s : State) :
    peerSeesStart s = { s with wcnt := if s.cfg.oracle = .reference then 0 else s.wcnt } := by
  unfold peerSeesStart
  cases s.cfg.oracle <;> rfl

/-- Settles O29: a condition is answered by neither oracle, but the reference peer forgets its address bytes at a start. -/
theorem conditionsComplete : Obligations.ConditionsComplete := by
  intro s phase
  refine ⟨fun hp => ?_, fun hp => ?_, fun hp => ?_⟩ <;> simp only [complete, hp, peerSeesStart_eq] <;> rfl

/-- Only a completion moves the session, and it frees the engine. -/
theorem Move.sess {s t : State} (m : Move s t) :
    t.sess = s.sess ∨
      (completionEnabled s = true ∧ t.busy = false ∧ t.inflight = none ∧ ∃ p, s.inflight = some p) := by
  cases m with
  | environment frame => exact .inl (congrArg State.sess frame :)
  | accepted i _ _ moved => exact .inl (congrArg State.sess moved :)
  | completed enabled done =>
    obtain ⟨p, hp, ⟨_, rfl⟩ | ⟨n, e, d, q, c, a, r, rfl, _⟩⟩ := complete_cases done
    · exact .inl rfl
    · exact .inr ⟨enabled, rfl, rfl, p, hp⟩
  | entered _ moved => exact .inl (congrArg State.sess moved :)
  | handled _ move => exact .inl (congrArg State.sess move.frame :)
  | stepped _ w k i _ _ move => exact .inl (congrArg State.sess move.frame :)

/-- Settles O40: a move that changes the session is a completion that is enabled. -/
theorem sessionMovesAtCompletionAlone : Obligations.SessionMovesAtCompletionAlone := by
  intro s t h hp hs
  obtain ⟨sc, m⟩ := step_move h hp
  obtain ⟨enabled, freed⟩ := m.sess.resolve_left hs
  obtain ⟨busy, responsive⟩ := (completionEnabled_iff _).mp enabled
  exact ⟨busy, responsive, freed⟩

/-! ### One micro-step of a command in the foreground (R22, R23) -/

section Foreground

variable {i : Instr} {w : Word} {k : Nat} {s t : State} {m : Micro} {p : Prim}

theorem exec_of_standsAt (h : standsAt w k s) : exec i s = foregroundStep (program i) w k s := by
  obtain ⟨hi, hfg⟩ := h
  rw [exec_foreground i hi, command_running hi hfg]

theorem exec_advances (h : standsAt w k s) (hm : (program i)[k]? = some m) (ha : m s = (t, .advance)) :
    exec i s = .next { t with fg := nextPosition i w k } := by
  simp only [exec_of_standsAt h, foregroundStep, hm, ha, program_length, nextPosition]

theorem exec_stays (h : standsAt w k s) (hm : (program i)[k]? = some m) (hst : m s = (t, .stay)) :
    exec i s = .next t := by
  simp only [exec_of_standsAt h, foregroundStep, hm, hst]

/-- `issue` in the foreground leaves what R76 lists. -/
theorem exec_issues (h : standsAt w k s) (hm : (program i)[k]? = some m) (hs : m s = issue p s)
    (hk : k + 1 < programLength i) : exec i s = .next (issueLeaves p w k s) := by
  obtain ⟨hb, he⟩ | ⟨hb, hn, he⟩ | ⟨hb, hn, he⟩ := issue_cases p s
  · rw [exec_stays h hm (hs.trans he), issueLeaves, if_pos hb]
    rfl
  · rw [exec_stays h hm (hs.trans he), issueLeaves, if_neg (by simp [hb]), if_pos hn]
    rfl
  · rw [exec_advances h hm (hs.trans he), issueLeaves, if_neg (by simp [hb]), if_neg hn, nextPosition, if_pos hk]

/-- `await` in the foreground spins while the engine is busy (R77). -/
theorem exec_awaits_busy (h : standsAt w k s) (hm : (program i)[k]? = some await) (hb : s.busy = true) :
    exec i s = .next s :=
  exec_stays h hm (by simp [await, hb])

theorem exec_awaits_free (h : standsAt w k s) (hm : (program i)[k]? = some await) (hb : s.busy = false) :
    exec i s = .next { s with fg := nextPosition i w k } :=
  exec_advances h hm (by simp [await, hb])

end Foreground

/-- `FramingFault` comes before everything the session says (R76). -/
theorem issueLeaves_framing {p : Prim} {w : Word} {k : Nat} {s : State} (hb : s.busy = true) :
    issueLeaves p w k s = { s with fault := some (.framingFault p) } := if_pos hb

theorem issueLeaves_protocol {p : Prim} {w : Word} {k : Nat} {s : State} (hb : s.busy = false)
    (ha : ¬AdmittedIn s.cfg s.sess p) :
    issueLeaves p w k s = { s with fault := some (.protocolFault s.sess (.prim p)) } := by
  rw [issueLeaves, if_neg (by simp [hb]), if_pos ((nextSess_eq_none_iff ..).mpr ha)]

theorem issueLeaves_admitted {p : Prim} {w : Word} {k : Nat} {s : State} (hb : s.busy = false)
    (ha : AdmittedIn s.cfg s.sess p) :
    issueLeaves p w k s = { s with inflight := some p, busy := true, fg := .run w (k + 1) } := by
  rw [issueLeaves, if_neg (by simp [hb]), if_neg (by simpa [nextSess_eq_none_iff] using ha)]

/-! ### ENABLE and DISABLE (R82, R83) -/

/-- Settles O10: the micro-step is one register write, and ENABLE is exempt from the check of `EN`. -/
theorem enableSetsEn : Obligations.EnableSetsEn :=
  ⟨fun s _ h => exec_advances (t := { s with en := true }) h rfl rfl,
    fun _ hi hfg => exec_accepted hi hfg (portCheck_passed nofun (.inl rfl) rfl nofun)⟩

/-- Settles O11: the session decides between the register write and the fault, and DISABLE is exempt from the check of
`EN`. -/
theorem disableClearsEnOutsideASession : Obligations.DisableClearsEnOutsideASession :=
  ⟨fun s _ h hs => exec_advances (t := { s with en := false }) h rfl (if_pos hs),
    fun _ _ h hs => exec_stays h rfl (if_neg hs),
    fun _ hi hfg => exec_accepted hi hfg (portCheck_passed nofun (.inl rfl) rfl nofun)⟩

/-! ### The primitive commands (R84 to R88) -/

/-- The primitive that a primitive command hands to the bus engine. -/
def carriedPrim : Instr → Option Prim
  | .start => some .start
  | .rstart => some .rstart
  | .stop => some .stop
  | .send v => some (.send v)
  | .read k => some (.read k)
  | _ => none

theorem exists_carriedPrim_iff (i : Instr) : (∃ p, carriedPrim i = some p) ↔
    i = .start ∨ i = .rstart ∨ i = .stop ∨ (∃ v, i = .send v) ∨ ∃ k, i = .read k := by
  cases i <;> simp [carriedPrim]

section Carried

variable {i : Instr} {w : Word} {s : State} {p : Prim}

/-- A primitive command issues its primitive and awaits it. -/
theorem program_carried (hc : carriedPrim i = some p) :
    (program i)[0]? = some (issue p) ∧ (program i)[1]? = some await ∧ 1 < programLength i := by
  cases i <;> cases hc <;> exact ⟨rfl, rfl, by simp [programLength]⟩

theorem exec_carried_issues (hc : carriedPrim i = some p) (h : standsAt w 0 s) :
    exec i s = .next (issueLeaves p w 0 s) := by
  obtain ⟨first, _, more⟩ := program_carried hc
  exact exec_issues h first rfl more

/-- Only READ goes on after its `await`. -/
theorem nextPosition_carried (hc : carriedPrim i = some p) (w : Word) :
    ((∀ k, i ≠ .read k) → nextPosition i w 1 = .idle) ∧
      ((∃ k, i = .read k) → nextPosition i w 1 = .run w 2) := by
  cases i <;> cases hc <;> simp [nextPosition, programLength]

end Carried

/-- Settles O13: the issue with the engine free, in a session in which the primitive is admitted. -/
theorem primitiveCommandsIssue : Obligations.PrimitiveCommandsIssue := by
  intro s w h hb issued
  have issues {i : Instr} {p : Prim} (hc : carriedPrim i = some p) (ha : AdmittedIn s.cfg s.sess p) :
      exec i s = .next (issued p) := by
    rw [exec_carried_issues hc h, issueLeaves_admitted hb ha]
  exact ⟨fun hs => issues rfl hs, fun hs => issues rfl hs, fun hs => issues rfl hs, fun _ hs => issues rfl hs,
    fun _ hs => issues rfl hs⟩

/-- Settles O15: the issue with the engine busy, and the issue outside the sessions in which the primitive is admitted. -/
theorem misplacedPrimitivesFault : Obligations.MisplacedPrimitivesFault := by
  intro s w h framing protocol
  constructor
  · intro hb
    have faults {i : Instr} {p : Prim} (hc : carriedPrim i = some p) : exec i s = .next (framing p) := by
      rw [exec_carried_issues hc h, issueLeaves_framing hb]
    exact ⟨faults rfl, faults rfl, faults rfl, fun _ => faults rfl, fun _ => faults rfl⟩
  · intro hb
    have faults {i : Instr} {p : Prim} (hc : carriedPrim i = some p) (ha : ¬AdmittedIn s.cfg s.sess p) :
        exec i s = .next (protocol p) := by
      rw [exec_carried_issues hc h, issueLeaves_protocol hb ha]
    exact ⟨fun hs => faults rfl hs, fun hs => faults rfl hs, fun hs => faults rfl hs,
      fun _ hsw hs1 => faults rfl (not_or.mpr ⟨hsw, hs1⟩), fun _ hs => faults rfl hs⟩

/-- Settles O14: the `await`, and READ's last micro-step, which is one write. -/
theorem primitiveCommandsAwaitAndReturn : Obligations.PrimitiveCommandsAwaitAndReturn := by
  constructor
  · intro s w i h hi
    obtain ⟨p, hc⟩ := (exists_carriedPrim_iff i).mpr hi
    obtain ⟨_, awaits, _⟩ := program_carried hc
    obtain ⟨ends, goesOn⟩ := nextPosition_carried hc w
    refine ⟨exec_awaits_busy h awaits, fun hb hr => ?_, fun hb hr => ?_⟩
    · rw [exec_awaits_free h awaits hb, ends hr]
    · rw [exec_awaits_free h awaits hb, goesOn hr]
  · intro s w k h
    exact exec_advances (t := { s with replies := s.replies ++ [.byte s.data] }) h rfl rfl

end Sys2Proof.Machine
end

section
/-! PROOFS: what one step of exec of a command leaves unchanged, and the frames of the switches and of the primitive commands
(spec/40_bus_engine.md R82 to R88, spec/43_sample_clock_pwm.md R111). -/

namespace Sys2Proof.Machine

/-! ### One step of exec of any command but PULL (R23) -/

/-- What one step of exec of `i` leaves unchanged, by the commands that write each field. -/
structure CommandFrame (i : Instr) (s t : State) : Prop where
  unwritten : t = { s with fg := t.fg, pos := t.pos, lim := t.lim, duty := t.duty, div := t.div, openf := t.openf,
                           tickEn := t.tickEn, en := t.en, guard := t.guard, trace := t.trace, replies := t.replies,
                           inflight := t.inflight, busy := t.busy, fault := t.fault }
  cursor : (∀ n, i ≠ .openClip n) → (∀ n, i ≠ .select n) → SameCursor s t
  output : i ≠ .close → (∀ n, i ≠ .select n) → t.trace = s.trace ∧ t.duty = s.duty
  openf : (∀ n, i ≠ .select n) → t.openf = s.openf
  guard : takesGuard i = false → t.guard = s.guard
  en : i ≠ .enable → i ≠ .disable → t.en = s.en
  tickEn : (∀ e, i ≠ .tickctl e) → t.tickEn = s.tickEn
  replies : (∀ k, i ≠ .read k) → t.replies = s.replies
  engine : awaitSteps i = [] → t.busy = s.busy ∧ t.inflight = s.inflight
  fault : awaitSteps i = [] → i ≠ .disable → t.fault = s.fault

section Frame

variable {i : Instr} {w : Word} {k : Nat} {s t : State}

theorem commandFrame_of_position (i : Instr) (s : State) (q : Position) : CommandFrame i s { s with fg := q } where
  unwritten := rfl
  cursor _ _ := ⟨rfl, rfl, rfl⟩
  output _ _ := ⟨rfl, rfl⟩
  openf _ := rfl
  guard _ := rfl
  en _ _ := rfl
  tickEn _ := rfl
  replies _ := rfl
  engine _ := ⟨rfl, rfl⟩
  fault _ _ := rfl

/-- `issue`, `await` and a raise write none of the registers, and only a command that awaits issues. -/
theorem commandFrame_of_engine
    (ht : t = { s with fg := t.fg, inflight := t.inflight, busy := t.busy, fault := t.fault })
    (ha : awaitSteps i = [] → i = .disable ∧ t.busy = s.busy ∧ t.inflight = s.inflight) : CommandFrame i s t where
  unwritten := by rw [ht]
  cursor _ _ := by rw [ht]; exact ⟨rfl, rfl, rfl⟩
  output _ _ := by rw [ht]; exact ⟨rfl, rfl⟩
  openf _ := by rw [ht]
  guard _ := by rw [ht]
  en _ _ := by rw [ht]
  tickEn _ := by rw [ht]
  replies _ := by rw [ht]
  engine h := (ha h).2
  fault h hd := absurd (ha h).1 hd

/-- The register writes of a command, each by its own kind of command. -/
theorem Writes.commandFrame (wr : Writes i w k s t) : CommandFrame i s t where
  unwritten := by rw [wr.frame]
  cursor ho hs := ⟨by simpa [ho, hs] using wr.pos, by simpa [ho, hs] using wr.lim, by simpa [ho, hs] using wr.div⟩
  output hc hs := by simpa [hc, hs] using wr.output
  openf hs := by simpa [hs] using wr.openf
  guard hg := by simpa [hg] using wr.guard
  en he hd := by simpa [he, hd] using wr.en
  tickEn ht := by simpa [ht] using wr.tickEn
  replies hr := by simpa [hr] using wr.replies
  engine _ := by rw [wr.frame]; exact ⟨rfl, rfl⟩
  fault _ _ := by rw [wr.frame]

theorem issueLeaves_frame (p : Prim) (w : Word) (k : Nat) (s : State) :
    ∃ q f g b, issueLeaves p w k s = { s with fg := q, inflight := f, busy := b, fault := g } := by
  unfold issueLeaves
  split
  · exact ⟨_, _, _, _, rfl⟩
  · split <;> exact ⟨_, _, _, _, rfl⟩

theorem ForegroundMove.commandFrame (m : ForegroundMove i w k s t) : CommandFrame i s t := by
  cases m with
  | issued p _ next moved =>
    obtain ⟨q, f, g, b, he⟩ := issueLeaves_frame p w k s
    rw [moved, he]
    exact commandFrame_of_engine rfl fun h => absurd next (by simp [h])
  | spun _ _ same => rw [same]; exact commandFrame_of_position i s s.fg
  | waited _ _ moved => rw [moved]; exact commandFrame_of_position i s _
  | disabledInside disable _ _ raised =>
    rw [raised]
    exact commandFrame_of_engine rfl fun _ => ⟨disable, rfl, rfl⟩
  | wrote _ writes => exact writes.commandFrame

/-- In each of the three contexts: inside the handler, at the free port, in the foreground. -/
theorem exec_frame (hp : i ≠ .pull) (h : exec i s = .next t) : CommandFrame i s t := by
  cases hi : s.inIsr with
  | true =>
    rw [exec_in_handler hi hp] at h
    cases h
    exact commandFrame_of_position i s s.fg
  | false =>
    cases hfg : s.fg with
    | idle =>
      rw [exec_at_port i hi hfg] at h
      cases h
      obtain ⟨_, he⟩ | ⟨_, he⟩ := accept_cases i s <;> rw [he]
      · exact commandFrame_of_position i s s.fg
      · exact commandFrame_of_position i s _
    | run w k =>
      rw [exec_of_standsAt ⟨hi, hfg⟩] at h
      exact (foreground_cases h).commandFrame

/-- No command writes what is not its own: the interrupt's registers, the peer, the environment's choices. -/
theorem CommandFrame.interrupt (f : CommandFrame i s t) : SameInterrupt s t := by
  rw [f.unwritten]; exact ⟨rfl, rfl, rfl⟩

theorem CommandFrame.environment (f : CommandFrame i s t) : SameEnvironment s t := by
  rw [f.unwritten]; exact ⟨fun _ => rfl, rfl, rfl, rfl, rfl, rfl, rfl, rfl⟩

theorem CommandFrame.data_sess (f : CommandFrame i s t) : t.data = s.data ∧ t.sess = s.sess := by
  rw [f.unwritten]; exact ⟨rfl, rfl⟩

/-- A command without a guard touches neither the stream nor the output. -/
theorem CommandFrame.unguarded (f : CommandFrame i s t) (hg : takesGuard i = false) :
    SameCursor s t ∧ t.duty = s.duty ∧ t.openf = s.openf ∧ t.guard = s.guard ∧ t.trace = s.trace := by
  have ho : ∀ n, i ≠ .openClip n := by rintro n rfl; cases hg
  have hs : ∀ n, i ≠ .select n := by rintro n rfl; cases hg
  have hc : i ≠ .close := by rintro rfl; cases hg
  obtain ⟨trace, duty⟩ := f.output hc hs
  exact ⟨f.cursor ho hs, duty, f.openf hs, f.guard hg, trace⟩

end Frame

/-! ### The switches and the primitive commands -/

/-- Settles O56: a switch takes no guard and awaits nothing, and each writes its own flag. -/
theorem frameOfTheSwitches : Obligations.FrameOfTheSwitches := by
  intro i s t hi h
  obtain ⟨hp, hg, ha, hr⟩ : i ≠ .pull ∧ takesGuard i = false ∧ awaitSteps i = [] ∧ ∀ k, i ≠ .read k := by
    obtain rfl | rfl | ⟨e, rfl⟩ := hi <;> simp [takesGuard, awaitSteps]
  have f := exec_frame hp h
  obtain ⟨cursor, duty, openf, guard, trace⟩ := f.unguarded hg
  obtain ⟨data, sess⟩ := f.data_sess
  obtain ⟨busy, inflight⟩ := f.engine ha
  refine ⟨cursor, f.interrupt, f.environment, duty, data, busy, inflight, sess, openf, guard, trace, f.replies hr,
    ?en, ?tickEn, f.fault ha⟩
  case en =>
    rintro ⟨e, rfl⟩
    exact f.en nofun nofun
  case tickEn =>
    rintro (rfl | rfl)
    all_goals exact f.tickEn nofun

/-- Settles O57: a primitive command takes no guard and is no switch. -/
theorem frameOfThePrimitiveCommands : Obligations.FrameOfThePrimitiveCommands := by
  intro i s t hi h
  obtain ⟨hp, hg, he, hd, ht⟩ :
      i ≠ .pull ∧ takesGuard i = false ∧ i ≠ .enable ∧ i ≠ .disable ∧ ∀ e, i ≠ .tickctl e := by
    obtain rfl | rfl | rfl | ⟨v, rfl⟩ | ⟨k, rfl⟩ := hi <;> simp [takesGuard]
  have f := exec_frame hp h
  obtain ⟨cursor, duty, openf, guard, trace⟩ := f.unguarded hg
  obtain ⟨data, sess⟩ := f.data_sess
  exact ⟨cursor, f.interrupt, f.environment, duty, data, f.en he hd, sess, openf, f.tickEn ht, guard, trace, f.replies⟩

end Sys2Proof.Machine
end

section
/-! PROOFS: runs in which the environment makes no move, and the primitive commands from rest to their return
(spec/40_bus_engine.md R77, R78, R84 to R88). -/

namespace Sys2Proof.Machine

/-! ### Runs -/

theorem leadsTo.refl (s : State) : leadsTo s s := ⟨0, rfl⟩

theorem leadsTo.head {s t u : State} (h : step s = .next t) (ht : leadsTo t u) : leadsTo s u := by
  obtain ⟨n, hn⟩ := ht
  exact ⟨n + 1, by simp only [Host.Core.run, core, h]; exact hn⟩

/-- The environment makes no move and interrupts nothing: the bus is responsive, no tick is pending, no fault recorded. -/
structure Undisturbed (s : State) : Prop where
  fault : s.fault = none
  inIsr : s.inIsr = false
  tickPend : s.tickPend = false
  responsive : s.responsive = true
  script : s.script = []

section Undisturbed

variable {i : Instr} {w : Word} {k : Nat} {s t u : State} {m : Micro} {p : Prim}

/-- Undisturbed and with the engine free, the command in progress goes on. -/
theorem Undisturbed.step_exec (h : Undisturbed s) (hb : s.busy = false) (hfg : s.fg = .run w k)
    (hw : decodeWord w = .ok i) : step s = exec i s :=
  (stepRunsTheCommandInProgress s w k i h.fault h.inIsr (by simp [entryEnabled, h.tickPend]) hfg hw).1 h.script
    (by simp [completionEnabled, hb])

/-- Undisturbed and with a primitive in flight, the engine completes. -/
theorem Undisturbed.step_complete (h : Undisturbed s) (hb : s.busy = true) : step s = complete s := by
  simp [step, agentStep, scriptMove, blockMove, completionEnabled, h.fault, h.script, h.responsive, hb]

/-- A completion of an admitted primitive frees the engine, and writes only the session, the trace, `DATA` and the peer. -/
theorem complete_admitted (h : complete s = .next t) (hp : s.inflight = some p) (ha : AdmittedIn s.cfg s.sess p) :
    t = { s with sess := t.sess, inflight := none, busy := false, trace := t.trace, data := t.data, ptr := t.ptr,
                 wcnt := t.wcnt, ah := t.ah, draws := t.draws } := by
  obtain ⟨p', hp', ⟨hn, _⟩ | ⟨n, e, d, q, c, a, r, rfl, _⟩⟩ := complete_cases h
  · cases hp.symm.trans hp'
    exact absurd ha ((nextSess_eq_none_iff ..).mp hn)
  · rfl

/-- An admitted primitive, issued at micro-step `k` and awaited at the next: the engine completes it in between. -/
theorem Undisturbed.primitive (h : Undisturbed s) (hb : s.busy = false) (hfg : s.fg = .run w k)
    (hw : decodeWord w = .ok i) (hm : (program i)[k]? = some m) (hs : m s = issue p s)
    (hawait : (program i)[k + 1]? = some await) (ha : AdmittedIn s.cfg s.sess p)
    (hc : complete { s with inflight := some p, busy := true, fg := .run w (k + 1) } = .next u)
    (hu : leadsTo { u with fg := nextPosition i w (k + 1) } t) : leadsTo s t := by
  have more : k + 1 < programLength i := by
    rw [← program_length]
    exact (List.getElem?_eq_some_iff.mp hawait).1
  have issued := (h.step_exec hb hfg hw).trans (exec_issues ⟨h.inIsr, hfg⟩ hm hs more)
  rw [issueLeaves_admitted hb ha] at issued
  have flying : Undisturbed { s with inflight := some p, busy := true, fg := .run w (k + 1) } :=
    ⟨h.fault, h.inIsr, h.tickPend, h.responsive, h.script⟩
  have freed := complete_admitted hc rfl ha
  have quiet : Undisturbed u := by
    rw [freed]
    exact ⟨h.fault, h.inIsr, h.tickPend, h.responsive, h.script⟩
  have free : u.busy = false := by rw [freed]
  have stands : u.fg = .run w (k + 1) := by rw [freed]
  have waited := (quiet.step_exec free stands hw).trans (exec_awaits_free ⟨quiet.inIsr, stands⟩ hawait free)
  exact .head issued (.head ((flying.step_complete rfl).trans hc) (.head waited hu))

/-- A word offered at rest is accepted if it passes the port's checks. -/
theorem offered.step_accepts (h : offered (encode i) s) (hc : portCheck i s = none) :
    step s = .next { s with script := [], fg := .run (encode i) 0 } := by
  obtain ⟨⟨hf, hfg, hi, _, ht⟩, _, _, _, hs⟩ := h
  rw [stepRunsTheWrittenCommand s (encode i) [] i hf hs ((portFree_iff s).mpr ⟨hfg, hi⟩) (by simp [entryEnabled, ht])
    (decodeWord_encode i)]
  exact exec_accepted hi hfg hc

theorem offered.undisturbed (h : offered w s) (q : Position) : Undisturbed { s with script := [], fg := q } := by
  obtain ⟨⟨hf, _, hi, _, ht⟩, _, _, hr, _⟩ := h
  exact ⟨hf, hi, ht, hr, rfl⟩

theorem offered.idle (h : offered w s) : s.fg = .idle ∧ s.busy = false ∧ s.inflight = none := by
  obtain ⟨⟨_, hfg, _, hb, _⟩, hp, _⟩ := h
  exact ⟨hfg, hb, hp⟩

end Undisturbed

/-! ### The primitive commands -/

/-- READ's last micro-step, in a run of its own (R88). -/
theorem Undisturbed.step_returns {w : Word} {k : Ack} {s : State} (h : Undisturbed s) (hb : s.busy = false)
    (hfg : s.fg = .run w 2) (hw : decodeWord w = .ok (.read k)) :
    step s = .next { s with replies := s.replies ++ [.byte s.data], fg := .idle } := by
  obtain ⟨_, returns⟩ := primitiveCommandsAwaitAndReturn
  rw [h.step_exec hb hfg hw, returns s w k ⟨h.inIsr, hfg⟩]

/-- Of the port's checks a primitive command needs `EN` alone. -/
theorem portCheck_carried {i : Instr} {p : Prim} {s : State} (hc : carriedPrim i = some p) (he : s.en = true) :
    portCheck i s = none := by
  refine portCheck_passed ?_ (.inr he) ?_ ?_ <;> cases i <;> cases hc <;> simp [selectorInTable, selector]

/-- The command offered in `s` has been accepted and has handed its primitive to the bus engine. -/
def handedOver (i : Instr) (p : Prim) (s : State) : State :=
  { s with script := [], fg := .run (encode i) 1, inflight := some p, busy := true }

section Offered

variable {i : Instr} {p : Prim} {s t u : State}

/-- From rest, an admitted primitive command is accepted, issues its primitive, and passes its `await` when the engine has
completed it. -/
theorem offered.carried (h : offered (encode i) s) (hc : carriedPrim i = some p) (he : s.en = true)
    (ha : AdmittedIn s.cfg s.sess p) (hd : complete (handedOver i p s) = .next u)
    (hu : leadsTo { u with fg := nextPosition i (encode i) 1 } t) : leadsTo s t := by
  obtain ⟨issues, awaits, _⟩ := program_carried hc
  obtain ⟨_, hb, _⟩ := h.idle
  exact .head (h.step_accepts (portCheck_carried hc he))
    ((h.undisturbed _).primitive hb rfl (decodeWord_encode i) issues rfl awaits ha hd hu)

/-- Every primitive command but READ ends there, at rest again: only what the completion wrote has changed. -/
theorem offered.carried_ends (h : offered (encode i) s) (hc : carriedPrim i = some p) (he : s.en = true)
    (ha : AdmittedIn s.cfg s.sess p) (hr : ∀ k, i ≠ .read k) (hd : complete (handedOver i p s) = .next u) :
    leadsTo s { u with fg := s.fg, inflight := s.inflight, busy := s.busy } := by
  obtain ⟨hfg, hb, hp⟩ := h.idle
  obtain ⟨ends, _⟩ := nextPosition_carried hc (encode i)
  refine h.carried hc he ha hd ?_
  rw [ends hr, hfg, hb, hp, complete_admitted hd rfl ha]
  exact .refl _

/-- READ goes on to return the byte that the completion has left in `DATA`. -/
theorem offered.read_ends {k : Ack} (h : offered (encode (.read k)) s) (he : s.en = true) (hs : s.sess = .sr)
    (hd : complete (handedOver (.read k) (.read k) s) = .next u) :
    leadsTo s { u with replies := u.replies ++ [.byte u.data], fg := s.fg, inflight := s.inflight,
                       busy := s.busy } := by
  obtain ⟨hfg, hb, hp⟩ := h.idle
  have freed := complete_admitted hd rfl hs
  have free : u.busy = false := by rw [freed]
  have quiet : Undisturbed { u with fg := .run (encode (.read k)) 2 } := by
    rw [freed]
    obtain ⟨fault, inIsr, tickPend, responsive, script⟩ := h.undisturbed .idle
    exact ⟨fault, inIsr, tickPend, responsive, script⟩
  refine h.carried rfl he hs hd (.head (quiet.step_returns free rfl (decodeWord_encode _)) ?_)
  rw [hfg, hb, hp, freed]
  exact .refl _

end Offered

/-- The completion of an admitted SEND, by either oracle: the acknowledge is on the trace, and only inside a write phase does
the peer take the byte. -/
theorem complete_send_admitted {s : State} {b : Byte} {n : Sess} (hp : s.inflight = some (.send b))
    (hn : nextSess s.cfg s.sess (.send b) = some n) (hw : s.sess = .sw → s.cfg.oracle = .reference → s.wcnt ≤ 1) :
    ∃ a q c h d, complete s = .next { s with sess := n, inflight := none, busy := false,
                                             trace := s.trace ++ [.tx b a], ptr := q, wcnt := c, ah := h, draws := d } ∧
      (s.cfg.oracle = .reference → a = .ack) ∧ (s.sess ≠ .sw → q = s.ptr ∧ c = s.wcnt ∧ h = s.ah) := by
  cases ho : s.cfg.oracle with
  | unconstrained =>
    rw [complete_send_unconstrained hp ho hn]
    exact ⟨_, _, _, _, _, rfl, nofun, fun _ => ⟨rfl, rfl, rfl⟩⟩
  | reference =>
    rw [complete_send_reference hp ho hn]
    by_cases hs : s.sess = .sw
    · obtain hc | hc : s.wcnt = 0 ∨ s.wcnt = 1 := by have := hw hs ho; omega
      · rw [peerTakes_first hs hc]
        exact ⟨_, _, _, _, _, rfl, fun _ => rfl, absurd hs⟩
      · rw [peerTakes_second hs hc]
        exact ⟨_, _, _, _, _, rfl, fun _ => rfl, absurd hs⟩
    · rw [peerTakes_outside hs]
      exact ⟨_, _, _, _, _, rfl, fun _ => rfl, fun _ => ⟨rfl, rfl, rfl⟩⟩

/-- The completion of an admitted READ, by either oracle: the reference peer's byte is the one at its pointer, which
advances. -/
theorem complete_read_admitted {s : State} {k : Ack} {n : Sess} (hp : s.inflight = some (.read k))
    (hn : nextSess s.cfg s.sess (.read k) = some n) :
    ∃ b q d, complete s = .next { s with data := b, sess := n, inflight := none, busy := false,
                                         trace := s.trace ++ [.rx b k], ptr := q, draws := d } ∧
      (s.cfg.oracle = .reference → b = memRead s s.ptr ∧ q = (s.ptr + 1) % s.cfg.eepromSize) := by
  cases ho : s.cfg.oracle with
  | unconstrained =>
    rw [complete_read_unconstrained hp ho hn]
    exact ⟨_, _, _, rfl, nofun⟩
  | reference =>
    rw [complete_read_reference hp ho hn]
    exact ⟨_, _, _, rfl, fun _ => ⟨rfl, rfl⟩⟩

/-- Settles O16: each command runs to its return with what the completion of its primitive leaves, READ by one micro-step
more. -/
theorem primitiveCommandsReturn : Obligations.PrimitiveCommandsReturn := by
  intro s he phase
  refine ⟨?start, ?rstart, ?stop, ?deviceByte, ?addressByte, ?read⟩
  case start =>
    intro ho hs
    obtain ⟨done, _, _⟩ := conditionsComplete (handedOver .start .start s)
    exact offered.carried_ends (i := .start) ho rfl he hs nofun (done rfl)
  case rstart =>
    intro ho hs
    obtain ⟨_, done, _⟩ := conditionsComplete (handedOver .rstart .rstart s)
    exact offered.carried_ends (i := .rstart) ho rfl he hs nofun (done rfl)
  case stop =>
    intro ho hs
    obtain ⟨_, _, done⟩ := conditionsComplete (handedOver .stop .stop s)
    exact offered.carried_ends (i := .stop) ho rfl he hs nofun (done rfl)
  case deviceByte =>
    intro v ho hs hv
    have hn : nextSess s.cfg s.sess (.send v) = some (if v = s.cfg.devWr then .sw else .sr) := by
      obtain rfl | rfl := hv <;> simp [hs, s.cfg.devices_differ.symm]
    obtain ⟨a, q, c, g, d, done, acknowledged, outside⟩ :=
      complete_send_admitted (s := handedOver (.send v) (.send v) s) rfl hn fun hsw => by cases hs.symm.trans hsw
    obtain ⟨rfl, rfl, rfl⟩ := outside fun hsw => by cases hs.symm.trans hsw
    exact ⟨a, _, ho.carried_ends rfl he (.inr ⟨hs, hv⟩) nofun done, acknowledged, rfl⟩
  case addressByte =>
    intro v ho hs hc
    have hn : nextSess s.cfg s.sess (.send v) = some s.sess := by simp [hs]
    obtain ⟨a, q, c, g, d, done, acknowledged, _⟩ :=
      complete_send_admitted (s := handedOver (.send v) (.send v) s) rfl hn fun _ => hc
    exact ⟨a, _, ho.carried_ends rfl he (.inl hs) nofun done, acknowledged, rfl⟩
  case read =>
    intro k ho hs
    have hn : nextSess s.cfg s.sess (.read k) = some (if k = .ack then .sr else .sn) := by rw [hs, nextSess_sr_read]
    obtain ⟨b, q, d, done, supplied⟩ := complete_read_admitted (s := handedOver (.read k) (.read k) s) rfl hn
    exact ⟨b, _, ho.read_ends he hs done, supplied, rfl⟩

end Sys2Proof.Machine
end

section
/-! PROOFS of the statements on the micro-steps of OPEN, CLOSE, SELECT and PULL (spec/41_stream_controller.md R91 to
R98, spec/42_playback_select.md R101): what each leaves, what none of them writes, and that `POS` never wraps. -/

namespace Sys2Proof.Machine

/-! ### The micro-steps of the guarded commands (R92, R93, R96, R101) -/

theorem guardOn_apply (s : State) : guardOn s = ({ s with guard := guardTaken s }, .advance) := by
  by_cases hg : s.cfg.guardMode = .explicit <;> simp [guardOn, guardTaken, hg]

/-- A micro-step that uses the entry of an accepted selector is that of its clip (R67). -/
theorem withClip_apply {n : Byte} {c : Clip} {s : State} (hc : s.cfg.clips[n.toNat]? = some c) (f : Clip → Micro) :
    withClip n f s = f c s := by
  simp [withClip, clipAt, hc]

section Positions

variable {i : Instr} {w : Word} {k : Nat} {s t : State} {m : Micro}

/-- A register write or a delay, not the last of its command (R23). -/
theorem exec_moves (h : standsAt w k s) (hm : (program i)[k]? = some m) (ha : m s = (t, .advance))
    (hk : k + 1 < programLength i) : exec i s = .next (movedTo w (k + 1) t) := by
  rw [exec_advances h hm ha, nextPosition_of_lt w hk, movedTo]

/-- The last micro-step leaves the command (R23). -/
theorem exec_ends (h : standsAt w k s) (hm : (program i)[k]? = some m) (ha : m s = (t, .advance))
    (hk : k + 1 = programLength i) : exec i s = .next { t with fg := .idle } := by
  rw [exec_advances h hm ha, nextPosition_of_last w hk]

theorem exec_skips {j : Nat} (h : standsAt w k s) (hm : (program i)[k]? = some m) (ha : m s = (t, .skipTo j)) :
    exec i s = .next (movedTo w j t) := by
  simp only [exec_of_standsAt h, foregroundStep, hm, ha, movedTo]

/-- `await`, never the last of a guarded command (R77). -/
theorem exec_awaits (h : standsAt w k s) (hm : (program i)[k]? = some await) (hk : k + 1 < programLength i) :
    exec i s = .next (awaitLeaves w k s) := by
  cases hb : s.busy with
  | true => rw [exec_awaits_busy h hm hb, awaitLeaves, if_pos hb]
  | false => rw [exec_awaits_free h hm hb, nextPosition_of_lt w hk, awaitLeaves, if_neg (by simp [hb]), movedTo]

end Positions

/-- Settles O17: each position is one of the kinds of micro-step, and its result is that kind's. -/
theorem openStepByStep : Obligations.OpenStepByStep := by
  intro n c s w k h hc hk
  obtain rfl | more : k = 18 ∨ k + 1 < 19 := by omega
  · exact exec_ends (i := .openClip n) h rfl rfl rfl
  match k, more with
  | 0, more => exact exec_moves h rfl (guardOn_apply s) more
  | 1, more | 3, more | 10, more | 13, more => exact exec_issues h rfl rfl more
  | 5, more | 7, more => exact exec_issues h rfl (withClip_apply hc _) more
  | 2, more | 4, more | 6, more | 8, more | 11, more | 14, more => exact exec_awaits h rfl more
  | 9, more | 12, more | 16, more | 17, more => exact exec_moves h rfl rfl more
  | 15, more => exact exec_moves h rfl (withClip_apply hc _) more
  | _ + 18, more => omega

/-- Settles O18: as for OPEN, with no selector. -/
theorem closeStepByStep : Obligations.CloseStepByStep := by
  intro s w k h hk
  obtain rfl | more : k = 6 ∨ k + 1 < 7 := by omega
  · exact exec_ends (i := .close) h rfl rfl rfl
  match k, more with
  | 0, more => exact exec_moves h rfl (guardOn_apply s) more
  | 1, more | 4, more => exact exec_issues h rfl rfl more
  | 2, more | 5, more => exact exec_awaits h rfl more
  | 3, more => exact exec_moves h rfl rfl more

/-- SELECT's micro-step 1 goes past the close when no stream has been opened (R101). -/
theorem exec_select_branches {n : Byte} {s : State} {w : Word} (h : standsAt w 1 s) :
    exec (.select n) s = .next (if s.openf = false then movedTo w 8 s else movedTo w 2 s) := by
  cases ho : s.openf with
  | false => exact exec_skips h rfl (by simp [skipIf, ho])
  | true => exact exec_moves (t := s) h rfl (by simp [skipIf, ho]) (by simp [programLength])

/-- Settles O19: as for OPEN, but for the branch at micro-step 1. -/
theorem selectStepByStep : Obligations.SelectStepByStep := by
  intro n c s w k h hc hk
  obtain rfl | more : k = 26 ∨ k + 1 < 27 := by omega
  · exact exec_ends (i := .select n) h rfl rfl rfl
  match k, more with
  | 0, more => exact exec_moves h rfl (guardOn_apply s) more
  | 1, _ => exact exec_select_branches h
  | 2, more | 5, more | 8, more | 10, more | 17, more | 20, more => exact exec_issues h rfl rfl more
  | 12, more | 14, more => exact exec_issues h rfl (withClip_apply hc _) more
  | 3, more | 6, more | 9, more | 11, more | 13, more | 15, more | 18, more | 21, more =>
    exact exec_awaits h rfl more
  | 4, more | 7, more | 16, more | 19, more | 23, more | 24, more | 25, more => exact exec_moves h rfl rfl more
  | 22, more => exact exec_moves h rfl (withClip_apply hc _) more
  | _ + 26, more => omega

/-! ### The handler's turn, and PULL (R98, R107) -/

theorem sequencerMove_in_handler {s : State} (h : s.inIsr = true) : sequencerMove s = handlerStep s := if_pos h

/-- Settles O9: either way the turn is the sequencer's, which inside the handler goes on with it. -/
theorem stepRunsTheHandlerAndPull : Obligations.StepRunsTheHandlerAndPull := by
  intro s hf hi
  refine ⟨fun hs hc => ?_, fun rest hs => ?_, fun h1 h4 => (exec_pull_in_handler hi h1 h4).symm⟩
  · rw [step_of_silence hf hs hc, sequencerMove_in_handler hi]
  · rw [step_of_sequencer_turn hf hs]
    exact sequencerMove_in_handler hi

section Handler

variable {k j : Nat} {s t : State} {m : Micro} {p : Prim}

theorem handlerStep_at (hk : s.isrpc = k) (hm : handlerProgram[k]? = some m) :
    handlerStep s = interruptStep (some m) s := by
  rw [handlerStep, hk, hm]

theorem handlerStep_advances (hk : s.isrpc = k) (hm : handlerProgram[k]? = some m) (ha : m s = (t, .advance)) :
    handlerStep s = .next { t with isrpc := k + 1 } := by
  simp only [handlerStep_at hk hm, interruptStep, ha, hk]

theorem handlerStep_stays (hk : s.isrpc = k) (hm : handlerProgram[k]? = some m) (ha : m s = (t, .stay)) :
    handlerStep s = .next t := by
  simp only [handlerStep_at hk hm, interruptStep, ha]

theorem handlerStep_skips (hk : s.isrpc = k) (hm : handlerProgram[k]? = some m) (ha : m s = (t, .skipTo j)) :
    handlerStep s = .next { t with isrpc := j } := by
  simp only [handlerStep_at hk hm, interruptStep, ha]

/-- The handler's `if c then skip to j` (R23). -/
theorem handlerStep_branches {c : State → Bool} (hk : s.isrpc = k) (hm : handlerProgram[k]? = some (skipIf c j)) :
    handlerStep s = .next { s with isrpc := if c s = true then j else k + 1 } := by
  cases hc : c s with
  | true => exact handlerStep_skips hk hm (by simp [skipIf, hc])
  | false => exact handlerStep_advances hk hm (by simp [skipIf, hc])

end Handler

/-- The handler's micro-step 2 hands READ(ACK) over exactly in a session that streams (R76, R79). -/
theorem handlerStep_issues {s : State} (hk : s.isrpc = 2) : handlerStep s = .next (handlerIssueLeaves s) := by
  have hm : handlerProgram[2]? = some (issue (.read .ack)) := rfl
  obtain ⟨hb, he⟩ | ⟨hb, hn, he⟩ | ⟨hb, hn, he⟩ := issue_cases (.read .ack) s
  · rw [handlerStep_stays hk hm he, handlerIssueLeaves, if_pos hb, raise]
  · have silent : s.sess ≠ .sr := (nextSess_eq_none_iff ..).mp hn
    rw [handlerStep_stays hk hm he, handlerIssueLeaves, if_neg (by simp [hb]), if_pos silent, raise]
  · have streaming : s.sess = .sr := by simpa [nextSess_eq_none_iff, AdmittedIn] using hn
    rw [handlerStep_advances hk hm he, handlerIssueLeaves, if_neg (by simp [hb]), if_neg (by simp [streaming])]

theorem handlerStep_awaits {s : State} (hk : s.isrpc = 3) :
    handlerStep s = .next (if s.busy = true then s else { s with isrpc := 4 }) := by
  have hm : handlerProgram[3]? = some await := rfl
  obtain ⟨hb, he⟩ | ⟨hb, he⟩ := await_cases s
  · rw [handlerStep_stays hk hm he, if_pos hb]
  · rw [handlerStep_advances hk hm he, if_neg (by simp [hb])]

/-- The handler's micro-steps 1 to 4 are the pull (R98). -/
theorem handlerStep_pulls {s : State} (h1 : 1 ≤ s.isrpc) (h4 : s.isrpc ≤ 4) :
    handlerStep s = .next (pullLeaves s) := by
  obtain hk | hk | hk | hk : s.isrpc = 1 ∨ s.isrpc = 2 ∨ s.isrpc = 3 ∨ s.isrpc = 4 := by omega
  all_goals simp only [pullLeaves, hk]
  · rw [handlerStep_branches hk rfl]
    by_cases left : s.pos < s.lim <;> simp [samplesLeft, left]
  · exact handlerStep_issues hk
  · exact handlerStep_awaits hk
  · exact handlerStep_advances hk rfl rfl

/-- PULL inside the handler is its micro-steps 1 to 4 (R98). -/
theorem exec_pull_leaves {s : State} (hi : s.inIsr = true) (h1 : 1 ≤ s.isrpc) (h4 : s.isrpc ≤ 4) :
    exec .pull s = .next (pullLeaves s) := by
  rw [exec_pull_in_handler hi h1 h4, handlerStep_pulls h1 h4]

/-- At the port PULL is always dropped (R119). -/
theorem exec_pull_at_port {s : State} (hi : s.inIsr = false) (hfg : s.fg = .idle) : exec .pull s = .next s :=
  exec_refused hi hfg (portCheck_pull s)

/-- Settles O20: the four micro-steps, and the refusal at the port. -/
theorem pullStepByStep : Obligations.PullStepByStep :=
  ⟨fun _ => exec_pull_leaves, fun _ => exec_pull_at_port⟩

/-- Inside the handler PULL has no other micro-step (R98). -/
theorem isrpc_of_exec_pull {s t : State} (hi : s.inIsr = true) (h : exec .pull s = .next t) :
    1 ≤ s.isrpc ∧ s.isrpc ≤ 4 := by
  simp only [exec, execPull, hi, if_true] at h
  split at h
  · cases h
  · rename_i k hk
    obtain ⟨m, hm, _⟩ := interruptStep_cases h
    have inside : k < 4 := (List.getElem?_eq_some_iff.mp hm).1
    omega

/-- One step of exec of PULL does nothing, or it is a micro-step of the pull (R98). -/
theorem exec_pull_cases {s t : State} (h : exec .pull s = .next t) : t = s ∨ t = pullLeaves s := by
  cases hi : s.inIsr with
  | true =>
    obtain ⟨h1, h4⟩ := isrpc_of_exec_pull hi h
    rw [exec_pull_leaves hi h1 h4] at h
    cases h
    exact .inr rfl
  | false =>
    cases hfg : s.fg with
    | idle =>
      rw [exec_pull_at_port hi hfg] at h
      cases h
      exact .inl rfl
    | run w k =>
      rw [exec_of_standsAt ⟨hi, hfg⟩] at h
      cases h

/-- What the pull writes (R98). -/
theorem pullLeaves_frame (s : State) :
    ∃ p k f b g, pullLeaves s = { s with pos := p, isrpc := k, inflight := f, busy := b, fault := g } := by
  unfold pullLeaves handlerIssueLeaves
  split
  · exact ⟨_, _, _, _, _, rfl⟩
  · split
    · exact ⟨_, _, _, _, _, rfl⟩
    · split <;> exact ⟨_, _, _, _, _, rfl⟩
  · split <;> exact ⟨_, _, _, _, _, rfl⟩
  · exact ⟨_, _, _, _, _, rfl⟩

/-! ### What they do not write -/

/-- Settles O58: a guarded command is no switch and no READ; of the three SELECT alone writes `OPENF`, CLOSE no cursor,
OPEN no output. -/
theorem frameOfTheGuardedCommands : Obligations.FrameOfTheGuardedCommands := by
  intro i s t hi h
  obtain ⟨hp, he, hd, ht, hr⟩ :
      i ≠ .pull ∧ i ≠ .enable ∧ i ≠ .disable ∧ (∀ e, i ≠ .tickctl e) ∧ ∀ k, i ≠ .read k := by
    obtain ⟨n, rfl⟩ | rfl | ⟨n, rfl⟩ := hi <;> simp
  have f := exec_frame hp h
  obtain ⟨data, sess⟩ := f.data_sess
  refine ⟨f.interrupt, f.environment, data, f.en he hd, sess, f.tickEn ht, f.replies hr, ?output, f.openf, ?cursor⟩
  case output =>
    rintro ⟨n, rfl⟩
    exact (f.output nofun nofun).symm
  case cursor =>
    rintro rfl
    exact f.cursor nofun nofun

/-- Settles O59: PULL does nothing or pulls, and the pull writes the five named fields alone. -/
theorem frameOfPull : Obligations.FrameOfPull := by
  intro s t h
  obtain ⟨p, k, f, b, g, ht⟩ :
      ∃ p k f b g, t = { s with pos := p, isrpc := k, inflight := f, busy := b, fault := g } := by
    obtain rfl | rfl := exec_pull_cases h
    · exact ⟨_, _, _, _, _, rfl⟩
    · exact pullLeaves_frame s
  subst ht
  exact ⟨rfl, rfl, rfl, rfl, rfl, rfl, rfl, rfl, rfl, rfl, rfl, rfl, rfl, rfl,
    fun _ => rfl, rfl, rfl, rfl, rfl, rfl, rfl, rfl⟩

/-! ### `POS` never wraps (R91) -/

theorem PullInRange.step_keeps {s t : State} (h : PullInRange s) (hs : step s = .next t) : PullInRange t := by
  obtain ⟨rest, rfl⟩ | ⟨sc, m⟩ := step_power_or_move hs
  · exact nofun
  · have h' : PullInRange { s with script := sc } := h
    exact h'.move m

/-- Settles O54: what the handler counts was left when it looked, and what it does not find left it does not count. -/
theorem positionNeverWraps : Obligations.PositionNeverWraps := by
  refine ⟨nofun, fun _ _ => PullInRange.step_keeps, fun s h hi => ⟨fun at4 => ?counts, fun at1 exhausted => ?skips⟩⟩
  case counts =>
    have left : s.pos < s.lim := h hi (by omega) (by omega)
    refine ⟨_, exec_pull_leaves hi (by omega) (by omega), ?_⟩
    simp only [pullLeaves, at4]
    constructor <;> bv_omega
  case skips =>
    refine ⟨_, exec_pull_leaves hi (by omega) (by omega), ?_⟩
    simp [pullLeaves, at1, exhausted]

end Sys2Proof.Machine
end

section
/-! PROOFS: OPEN and CLOSE from rest to their return (spec/41_stream_controller.md R93, R96), each as guard_on, its body
and guard_off; the two bodies wherever in a micro-program they stand, since SELECT runs them too
(spec/42_playback_select.md R101). -/

namespace Sys2Proof.Machine

/-! ### Runs of a command in progress -/

theorem leadsTo.trans {s t u : State} (h : leadsTo s t) (ht : leadsTo t u) : leadsTo s u := by
  obtain ⟨n, hn⟩ := h
  induction n generalizing s with
  | zero => cases hn; exact ht
  | succ n ih =>
    simp only [Host.Core.run] at hn
    split at hn
    · exact .head ‹_› (ih hn)
    · cases hn
    · cases hn

/-- The undisturbed foreground is about to take micro-step `k` of command `i`, with nothing in flight. -/
structure Poised (i : Instr) (w : Word) (k : Nat) (s : State) : Prop extends Undisturbed s where
  free : s.busy = false
  landed : s.inflight = none
  stands : s.fg = .run w k
  decodes : decodeWord w = .ok i

/-- The micro-steps `body` stand in the micro-program of `i` from position `k`, and are not its last. -/
def Embeds (i : Instr) (k : Nat) (body : List Micro) : Prop :=
  ∃ pre post, program i = pre ++ body ++ post ∧ pre.length = k ∧ post ≠ []

theorem Embeds.getElem? {i : Instr} {k j : Nat} {body : List Micro} {m : Micro} (e : Embeds i k body)
    (hm : body[j]? = some m) : (program i)[k + j]? = some m ∧ k + j + 1 < programLength i := by
  obtain ⟨pre, post, hp, rfl, hne⟩ := e
  have inside : j < body.length := (List.getElem?_eq_some_iff.mp hm).1
  have more : 0 < post.length := List.length_pos_iff.mpr hne
  constructor
  · rw [hp, List.append_assoc, List.getElem?_append_right (by omega), Nat.add_sub_cancel_left,
      List.getElem?_append_left inside, hm]
  · rw [← program_length, hp]
    simp only [List.length_append]
    omega

/-- The foreground has handed a primitive over and awaits it at micro-step `k` (R76). -/
def inFlight (p : Prim) (w : Word) (k : Nat) (s : State) : State :=
  { s with inflight := some p, busy := true, fg := .run w k }

section Poised

variable {i : Instr} {w : Word} {k j : Nat} {s t u : State} {m : Micro} {body : List Micro}

/-- It stays so as long as only the stream, the output, the session and the peer change. -/
theorem Poised.moved (h : Poised i w k s)
    (ht : t = { s with fg := .run w j, pos := t.pos, lim := t.lim, duty := t.duty, data := t.data, openf := t.openf,
                       div := t.div, guard := t.guard, sess := t.sess, trace := t.trace, ptr := t.ptr,
                       wcnt := t.wcnt, ah := t.ah, draws := t.draws }) : Poised i w j t := by
  rw [ht]
  exact ⟨⟨h.fault, h.inIsr, h.tickPend, h.responsive, h.script⟩, h.free, h.landed, rfl, h.decodes⟩

theorem Poised.step_exec (h : Poised i w k s) : step s = exec i s :=
  h.toUndisturbed.step_exec h.free h.stands h.decodes

/-- A register write or a delay of a body (R23). -/
theorem Poised.step_moves (h : Poised i w (k + j) s) (e : Embeds i k body) (hm : body[j]? = some m)
    (ha : m s = (t, .advance)) : step s = .next (movedTo w (k + j + 1) t) := by
  obtain ⟨here, more⟩ := e.getElem? hm
  rw [h.step_exec, exec_moves ⟨h.inIsr, h.stands⟩ here ha more]

/-- A primitive of a body that the session admits is issued, completed and awaited: only what the completion wrote
changes. -/
theorem Poised.primitive {p : Prim} {n : Sess} (h : Poised i w (k + j) s) (e : Embeds i k body)
    (hm : body[j]? = some m) (hs : m s = issue p s) (hawait : body[j + 1]? = some await)
    (ha : nextSess s.cfg s.sess p = some n)
    (hc : complete (inFlight p w (k + j + 1) s) = .next u) :
    leadsTo s { u with fg := .run w (k + j + 2), inflight := s.inflight, busy := s.busy } := by
  obtain ⟨here, _⟩ := e.getElem? hm
  obtain ⟨next, more⟩ := e.getElem? hawait
  have admitted : AdmittedIn s.cfg s.sess p := by
    by_contra not
    exact nomatch ((nextSess_eq_none_iff ..).mpr not).symm.trans ha
  refine h.toUndisturbed.primitive h.free h.stands h.decodes here hs next admitted hc ?_
  rw [show k + j + 1 = k + (j + 1) from rfl, nextPosition_of_lt w more, h.landed, h.free,
    complete_admitted hc rfl admitted]
  exact .refl _

end Poised

/-! ### The bus while OPENBODY runs -/

/-- From `s` command `i` has come to its micro-step `k` in session `x`, with the events `es` on the trace; besides them
only the peer has moved. -/
structure Reached (i : Instr) (w : Word) (k : Nat) (x : Sess) (es : List Event) (s t : State) : Prop where
  run : leadsTo s t
  poised : Poised i w k t
  leaves : t = { s with fg := .run w k, sess := x, trace := s.trace ++ es, ptr := t.ptr, wcnt := t.wcnt, ah := t.ah,
                        draws := t.draws }

/-- What the reference peer does with a byte sent: outside a write phase nothing, inside one it takes the two bytes of an
address (R51). -/
structure PeerTook (b : Byte) (s t : State) : Prop where
  outside : s.sess ≠ .sw → t.ptr = s.ptr ∧ t.wcnt = s.wcnt
  first : s.sess = .sw → s.wcnt = 0 → t.ah = b ∧ t.wcnt = 1
  second : s.sess = .sw → s.wcnt = 1 → t.ptr = peerAddress s.cfg s.ah b

theorem peerTook_of_complete {b : Byte} {n : Sess} {s t : State} (hp : s.inflight = some (.send b))
    (ho : s.cfg.oracle = .reference) (hn : nextSess s.cfg s.sess (.send b) = some n) (h : complete s = .next t) :
    PeerTook b s t := by
  rw [complete_send_reference hp ho hn] at h
  refine ⟨fun hs => ?_, fun hs hc => ?_, fun hs hc => ?_⟩
  · rw [peerTakes_outside hs] at h
    cases h
    exact ⟨rfl, rfl⟩
  · rw [peerTakes_first hs hc] at h
    cases h
    exact ⟨rfl, rfl⟩
  · rw [peerTakes_second hs hc] at h
    cases h
    rfl

section Reached

variable {i : Instr} {w : Word} {k j : Nat} {x : Sess} {es : List Event} {s t : State} {m : Micro}
  {body : List Micro}

theorem Poised.reached (h : Poised i w k s) : Reached i w k s.sess [] s s where
  run := .refl s
  poised := h
  leaves := by rw [List.append_nil, ← h.stands]

theorem Reached.sess (r : Reached i w k x es s t) : t.sess = x := (congrArg State.sess r.leaves :)

theorem Reached.cfg (r : Reached i w k x es s t) : t.cfg = s.cfg := (congrArg State.cfg r.leaves :)

/-- A further stretch of the run, in which one list of events more has come. -/
theorem Reached.goes_on {k' : Nat} {y : Sess} {fs : List Event} {u : State} (r : Reached i w k x es s t)
    (run : leadsTo t u)
    (leaves : u = { t with fg := .run w k', sess := y, trace := t.trace ++ fs, ptr := u.ptr, wcnt := u.wcnt,
                           ah := u.ah, draws := u.draws }) : Reached i w k' y (es ++ fs) s u where
  run := r.run.trans run
  poised := r.poised.moved (by rw [leaves])
  leaves := by rw [leaves, r.leaves, List.append_assoc]

/-- A delay (R94). -/
theorem Reached.delays {d : Delay} (r : Reached i w (k + j) x es s t) (e : Embeds i k body)
    (hm : body[j]? = some (delay d)) : Reached i w (k + j + 1) x es s (movedTo w (k + j + 1) t) := by
  simpa using r.goes_on (fs := []) (.head (r.poised.step_moves e hm rfl) (.refl _)) (by simp [movedTo, r.sess])

/-- A start or repeated start (R84, R85); with the reference peer a new write phase begins. -/
theorem Reached.starts {p : Prim} {v : Event} (r : Reached i w (k + j) x es s t) (e : Embeds i k body)
    (hm : body[j]? = some (issue p)) (hawait : body[j + 1]? = some await)
    (hp : (p = .start ∧ v = .start ∧ x = .s0) ∨ (p = .rstart ∧ v = .rstart ∧ x = .sw)) :
    ∃ u, Reached i w (k + j + 2) .s1 (es ++ [v]) s u ∧ u.ptr = t.ptr ∧ (s.cfg.oracle = .reference → u.wcnt = 0) := by
  have hn : nextSess t.cfg t.sess p = some .s1 := by
    rw [r.sess]
    obtain ⟨rfl, _, rfl⟩ | ⟨rfl, _, rfl⟩ := hp <;> rfl
  obtain ⟨start, rstart, _⟩ := conditionsComplete (inFlight p w (k + j + 1) t)
  have counted : s.cfg.oracle = .reference → (if t.cfg.oracle = .reference then 0 else t.wcnt) = 0 := by
    intro ho
    rw [r.cfg, if_pos ho]
  obtain ⟨rfl, rfl, _⟩ | ⟨rfl, rfl, _⟩ := hp
  · exact ⟨_, r.goes_on (r.poised.primitive e hm rfl hawait hn (start rfl)) rfl, rfl, counted⟩
  · exact ⟨_, r.goes_on (r.poised.primitive e hm rfl hawait hn (rstart rfl)) rfl, rfl, counted⟩

/-- A byte sent (R87): its acknowledge is on the trace. -/
theorem Reached.sends {b : Byte} {y : Sess} (r : Reached i w (k + j) x es s t) (e : Embeds i k body)
    (hm : body[j]? = some m) (hs : ∀ u, u.cfg = s.cfg → m u = issue (.send b) u)
    (hawait : body[j + 1]? = some await)
    (hn : nextSess s.cfg x (.send b) = some y) (hw : x = .sw → s.cfg.oracle = .reference → t.wcnt ≤ 1) :
    ∃ a u, Reached i w (k + j + 2) y (es ++ [.tx b a]) s u ∧ (s.cfg.oracle = .reference → a = .ack) ∧
      (s.cfg.oracle = .reference → PeerTook b t u) := by
  rw [← r.cfg, ← r.sess] at hn
  rw [← r.cfg, ← r.sess] at hw
  obtain ⟨a, q, c, g, d, done, acknowledged, _⟩ := 
    complete_send_admitted (s := inFlight (.send b) w (k + j + 1) t) rfl hn hw
  rw [← r.cfg]
  refine ⟨a, _, r.goes_on (r.poised.primitive e hm (hs t r.cfg) hawait hn done) rfl, acknowledged, fun ho => ?_⟩
  obtain ⟨outside, first, second⟩ := peerTook_of_complete (s := inFlight (.send b) w (k + j + 1) t) rfl ho hn done
  exact ⟨outside, first, second⟩

end Reached

/-! ### OPENBODY and CLOSEBODY (R93, R96) -/

section Body

variable {i : Instr} {w : Word} {k : Nat} {s : State}

/-- The base of an entry goes to the peer as its two bytes, and is the address the peer loads (R45, R51). -/
theorem peerAddress_base {cfg : Config} {n : Nat} {c : Clip} (hc : cfg.clips[n]? = some c) :
    peerAddress cfg (hiByte c.base) (loByte c.base) = c.base.toNat := by
  have whole : (hiByte c.base).toNat * 256 + (loByte c.base).toNat = c.base.toNat := by
    simp only [hiByte, loByte, BitVec.extractLsb'_toNat]
    omega
  rw [peerAddress_eq, whole, Config.clip_base_mod hc]

/-- The first eight micro-steps of OPENBODY: the peer is addressed for write and takes the base of the clip. -/
theorem Poised.addressesPeer {n : Byte} {c : Clip} (h : Poised i w k s) (e : Embeds i k (openBody n))
    (hs : s.sess = .s0) (hc : s.cfg.clips[n.toNat]? = some c) :
    ∃ a₁ a₂ a₃ t, Reached i w (k + 8) .sw [.start, .tx s.cfg.devWr a₁, .tx (hiByte c.base) a₂,
        .tx (loByte c.base) a₃] s t ∧
      (s.cfg.oracle = .reference → [a₁, a₂, a₃] = [.ack, .ack, .ack] ∧ t.ptr = c.base.toNat) := by
  have clip {f : Clip → Micro} : ∀ u, u.cfg = s.cfg → withClip n f u = f c u :=
    fun u hu => withClip_apply (hu ▸ hc) f
  obtain ⟨t₁, r₁, _, counted⟩ := h.reached.starts (j := 0) e rfl rfl (.inl ⟨rfl, rfl, hs⟩)
  obtain ⟨a₁, t₂, r₂, ack₁, device⟩ :=
    r₁.sends (j := 2) e rfl (fun u hu => by simp only [hu]) rfl (nextSess_devWr _) nofun
  have noneYet (ho : s.cfg.oracle = .reference) : t₂.wcnt = 0 := by
    obtain ⟨_, same⟩ := (device ho).outside (by simp [r₁.sess])
    exact same.trans (counted ho)
  obtain ⟨a₂, t₃, r₃, ack₂, high⟩ :=
    r₂.sends (j := 4) e rfl clip rfl (nextSess_sw_send _ _) fun _ ho => by simp [noneYet ho]
  have oneYet (ho : s.cfg.oracle = .reference) : t₃.ah = hiByte c.base ∧ t₃.wcnt = 1 :=
    (high ho).first r₂.sess (noneYet ho)
  obtain ⟨a₃, t₄, r₄, ack₃, low⟩ :=
    r₃.sends (j := 6) e rfl clip rfl (nextSess_sw_send _ _) fun _ ho => by simp [oneYet ho]
  refine ⟨a₁, a₂, a₃, t₄, r₄, fun ho => ⟨by rw [ack₁ ho, ack₂ ho, ack₃ ho], ?_⟩⟩
  obtain ⟨latched, one⟩ := oneYet ho
  rw [(low ho).second r₃.sess one, latched, r₃.cfg, peerAddress_base hc]

/-- The first fourteen micro-steps of OPENBODY: the addressed read. -/
theorem Poised.addressedRead {n : Byte} {c : Clip} (h : Poised i w k s) (e : Embeds i k (openBody n))
    (hs : s.sess = .s0) (hc : s.cfg.clips[n.toNat]? = some c) :
    ∃ a₁ a₂ a₃ a₄ t, Reached i w (k + 14) .sr [.start, .tx s.cfg.devWr a₁, .tx (hiByte c.base) a₂,
        .tx (loByte c.base) a₃, .rstart, .tx s.cfg.devRd a₄] s t ∧
      (s.cfg.oracle = .reference → [a₁, a₂, a₃, a₄] = [.ack, .ack, .ack, .ack] ∧ t.ptr = c.base.toNat) := by
  obtain ⟨a₁, a₂, a₃, t₁, r₁, peer⟩ := h.addressesPeer e hs hc
  have r₂ := r₁.delays (j := 8) e rfl
  obtain ⟨t₃, r₃, kept, _⟩ := r₂.starts (j := 9) e rfl rfl (.inr ⟨rfl, rfl, rfl⟩)
  have r₄ := r₃.delays (j := 11) e rfl
  obtain ⟨a₄, t₅, r₅, ack₄, device⟩ :=
    r₄.sends (j := 12) e rfl (fun u hu => by simp only [hu]) rfl (nextSess_devRd _) nofun
  refine ⟨a₁, a₂, a₃, a₄, t₅, r₅, fun ho => ?_⟩
  obtain ⟨acks, loaded⟩ := peer ho
  obtain ⟨same, _⟩ := (device ho).outside (by simp [r₄.sess])
  simp only [List.cons.injEq, and_true] at acks
  exact ⟨by simp [acks, ack₄ ho], same.trans (kept.trans loaded)⟩

/-- OPENBODY: the addressed read, then the cursor, `LIM` before `POS` (R93). -/
theorem Poised.opens {n : Byte} {c : Clip} (h : Poised i w k s) (e : Embeds i k (openBody n))
    (hs : s.sess = .s0) (hc : s.cfg.clips[n.toNat]? = some c) :
    ∃ a₁ a₂ a₃ a₄ t, leadsTo s t ∧
      (s.cfg.oracle = .reference → [a₁, a₂, a₃, a₄] = [.ack, .ack, .ack, .ack] ∧ t.ptr = c.base.toNat) ∧
      t = { s with fg := .run w (k + 17), pos := 0#16, lim := c.len, div := 0, sess := .sr,
                   trace := s.trace ++ [.start, .tx s.cfg.devWr a₁, .tx (hiByte c.base) a₂,
                     .tx (loByte c.base) a₃, .rstart, .tx s.cfg.devRd a₄],
                   ptr := t.ptr, wcnt := t.wcnt, ah := t.ah, draws := t.draws } := by
  obtain ⟨a₁, a₂, a₃, a₄, t, r, peer⟩ := h.addressedRead e hs hc
  have lim := r.poised.step_moves (j := 14) e rfl (withClip_apply (r.cfg ▸ hc) _)
  have pos := (r.poised.moved (j := k + 15) (t := movedTo w (k + 15) { t with lim := c.len }) rfl).step_moves
    (j := 15) e rfl rfl
  have div := (r.poised.moved (j := k + 16)
    (t := movedTo w (k + 16) { t with lim := c.len, pos := 0#16 }) rfl).step_moves (j := 16) e rfl rfl
  refine ⟨a₁, a₂, a₃, a₄, _, r.run.trans (.head lim (.head pos (.head div (.refl _)))), peer, ?_⟩
  rw [r.leaves]
  rfl

/-- The drain byte is read with no-acknowledge, which ends the streaming (R96). -/
theorem Poised.drains (h : Poised i w k s) (e : Embeds i k closeBody) (hs : s.sess = .sr) :
    ∃ b t, leadsTo s t ∧
      (s.cfg.oracle = .reference → b = memRead s s.ptr ∧ t.ptr = (s.ptr + 1) % s.cfg.eepromSize) ∧
      t = { s with fg := .run w (k + 2), data := b, sess := .sn, trace := s.trace ++ [.rx b .nack], ptr := t.ptr,
                   draws := t.draws } := by
  have hn : nextSess s.cfg s.sess (.read .nack) = some .sn := by rw [hs]; rfl
  obtain ⟨b, q, d, done, supplied⟩ := complete_read_admitted (s := inFlight (.read .nack) w (k + 1) s) rfl hn
  exact ⟨b, _, h.primitive (j := 0) e rfl rfl rfl hn done, supplied, rfl⟩

/-- CLOSEBODY: the drain byte is rendered before the session is stopped (R96). -/
theorem Poised.closes (h : Poised i w k s) (e : Embeds i k closeBody) (hs : s.sess = .sr) :
    ∃ b t, leadsTo s t ∧
      (s.cfg.oracle = .reference → b = memRead s s.ptr ∧ t.ptr = (s.ptr + 1) % s.cfg.eepromSize) ∧
      t = { s with fg := .run w (k + 5), data := b, duty := b, sess := .s0,
                   trace := s.trace ++ [.rx b .nack, .duty b, .stop], ptr := t.ptr, draws := t.draws } := by
  obtain ⟨b, t, drained, peer, leaves⟩ := h.drains e hs
  have ready : Poised i w (k + 2) t := h.moved (by rw [leaves])
  have renders := ready.step_moves (j := 2) e rfl rfl
  have rendered : Poised i w (k + 3) (movedTo w (k + 3) (writeDuty t.data t)) := ready.moved rfl
  have silent : t.sess = .sn := by rw [leaves]
  obtain ⟨_, _, done⟩ := conditionsComplete (inFlight .stop w (k + 4) (movedTo w (k + 3) (writeDuty t.data t)))
  have stops := rendered.primitive (n := .s0) (j := 3) e rfl rfl rfl
    (by rw [movedTo, writeDuty_sess, silent]; rfl) (done rfl)
  refine ⟨b, _, drained.trans (.head renders stops), peer, ?_⟩
  rw [leaves]
  simp [movedTo, writeDuty, emit, inFlight]

end Body

/-! ### From rest to the return -/

section Guarded

variable {i : Instr} {w : Word} {k : Nat} {s t : State}

/-- A guarded command has been accepted in `s` and has taken the guard (R92). -/
def underGuard (i : Instr) (s : State) : State :=
  { s with script := [], guard := guardTaken s, fg := .run (encode i) 1 }

theorem program_guarded (hg : takesGuard i = true) :
    (program i)[0]? = some guardOn ∧ (program i)[programLength i - 1]? = some guardOff ∧ 1 < programLength i := by
  cases i <;> cases hg <;> exact ⟨rfl, rfl, by simp [programLength]⟩

theorem offered.guarded (h : offered (encode i) s) (hg : takesGuard i = true) (hc : portCheck i s = none) :
    leadsTo s (underGuard i s) ∧ Poised i (encode i) 1 (underGuard i s) := by
  obtain ⟨on, _, more⟩ := program_guarded hg
  obtain ⟨_, hb, hp⟩ := h.idle
  have accepted : Poised i (encode i) 0 { s with script := [], fg := .run (encode i) 0 } :=
    ⟨h.undisturbed _, hb, hp, rfl, decodeWord_encode i⟩
  have takes := accepted.step_exec.trans (exec_moves ⟨accepted.inIsr, rfl⟩ on (guardOn_apply _) more)
  exact ⟨.head (h.step_accepts hc) (.head takes (.refl _)), accepted.moved rfl⟩

/-- The last micro-step drops the guard and leaves the command (R92). -/
theorem Poised.returns (h : Poised i w k t) (hg : takesGuard i = true) (hk : k + 1 = programLength i) :
    leadsTo t { t with guard := false, fg := .idle } := by
  obtain ⟨_, off, _⟩ := program_guarded hg
  rw [← hk] at off
  exact .head (h.step_exec.trans (exec_ends ⟨h.inIsr, h.stands⟩ off rfl hk)) (.refl _)

end Guarded

/-- A selector that names an entry is inside the table (R67 check 4). -/
theorem selectorInTable_of_clip {cfg : Config} {i : Instr} {n : Byte} {c : Clip} (hi : selector i = some n)
    (hc : cfg.clips[n.toNat]? = some c) : selectorInTable cfg i = true := by
  have inside : n.toNat < cfg.clips.length := (List.getElem?_eq_some_iff.mp hc).1
  simp only [selectorInTable, hi]
  exact decide_eq_true inside

/-- Settles O22: OPEN is guard_on, OPENBODY and guard_off. -/
theorem openReturns : Obligations.OpenReturns := by
  intro n c s ho he hs hc
  obtain ⟨start, ready⟩ := ho.guarded rfl (portCheck_passed nofun (.inr he) (selectorInTable_of_clip rfl hc) nofun)
  obtain ⟨a₁, a₂, a₃, a₄, t, run, peer, leaves⟩ := ready.opens ⟨[guardOn], [guardOff], rfl, rfl, nofun⟩ hs hc
  have done : Poised (.openClip n) _ 18 t := ready.moved (by rw [leaves])
  refine ⟨a₁, a₂, a₃, a₄, _, start.trans (run.trans (done.returns rfl rfl)), peer, ?_⟩
  obtain ⟨⟨_, hfg, _⟩, _, hg, _⟩ := ho
  rw [leaves, hfg, hg]
  rfl

/-- Settles O23: CLOSE is guard_on, CLOSEBODY and guard_off. -/
theorem closeReturns : Obligations.CloseReturns := by
  intro s ho he hopen hs
  have offers : offered (encode .close) s := ho
  obtain ⟨start, ready⟩ := offers.guarded rfl (portCheck_passed nofun (.inr he) rfl fun _ => hopen)
  obtain ⟨b, t, run, peer, leaves⟩ := ready.closes ⟨[guardOn], [guardOff], rfl, rfl, nofun⟩ hs
  have done : Poised .close _ 6 t := ready.moved (by rw [leaves])
  refine ⟨b, _, start.trans (run.trans (done.returns rfl rfl)), peer, ?_⟩
  obtain ⟨⟨_, hfg, _⟩, _, hg, _⟩ := ho
  rw [leaves, hfg, hg]
  rfl

end Sys2Proof.Machine
end

section
/-! PROOFS: SELECT from rest to its return (spec/42_playback_select.md R101 to R103), as the stretches its micro-program is
made of: guard_on and the branch, CLOSEBODY and the stop's delay if a stream is open, and from micro-step 8 the open. -/

namespace Sys2Proof.Machine

section Select

variable {n : Byte} {c : Clip} {w : Word} {s : State}

/-- From micro-step 8 SELECT opens the clip, sets `OPENF` and returns, whether it has closed a stream before or not. -/
theorem Poised.selectOpens (h : Poised (.select n) w 8 s) (hs : s.sess = .s0) (hc : s.cfg.clips[n.toNat]? = some c) :
    ∃ a₁ a₂ a₃ a₄ t, leadsTo s t ∧
      (s.cfg.oracle = .reference → [a₁, a₂, a₃, a₄] = [.ack, .ack, .ack, .ack] ∧ t.ptr = c.base.toNat) ∧
      t = { s with fg := .idle, guard := false, openf := true, pos := 0#16, lim := c.len, div := 0, sess := .sr,
                   trace := s.trace ++ [.start, .tx s.cfg.devWr a₁, .tx (hiByte c.base) a₂,
                     .tx (loByte c.base) a₃, .rstart, .tx s.cfg.devRd a₄],
                   ptr := t.ptr, wcnt := t.wcnt, ah := t.ah, draws := t.draws } := by
  obtain ⟨a₁, a₂, a₃, a₄, t, run, peer, leaves⟩ := h.opens
    ⟨[guardOn, skipIf (fun s => !s.openf) 8] ++ closeBody ++ [delay .stop],
      [assign fun s => { s with openf := true }, guardOff], rfl, rfl, nofun⟩ hs hc
  have opened : Poised (.select n) w 25 t := h.moved (by rw [leaves])
  have sets := opened.step_exec.trans
    (exec_moves (t := { t with openf := true }) ⟨opened.inIsr, opened.stands⟩ rfl rfl (by simp [programLength]))
  have last : Poised (.select n) w 26 (movedTo w 26 { t with openf := true }) := opened.moved rfl
  refine ⟨a₁, a₂, a₃, a₄, _, run.trans (.head sets (last.returns rfl rfl)), peer, ?_⟩
  rw [leaves]
  rfl

/-- On an open stream SELECT goes from micro-step 2 through CLOSEBODY and the delay to its open. -/
theorem Poised.selectCloses (h : Poised (.select n) w 2 s) (hs : s.sess = .sr) :
    ∃ b t, leadsTo s t ∧ (s.cfg.oracle = .reference → b = memRead s s.ptr) ∧
      t = { s with fg := .run w 8, data := b, duty := b, sess := .s0,
                   trace := s.trace ++ [.rx b .nack, .duty b, .stop], ptr := t.ptr, draws := t.draws } := by
  have body : Embeds (.select n) 2 closeBody :=
    ⟨[guardOn, skipIf (fun s => !s.openf) 8],
      [delay .stop] ++ openBody n ++ [assign fun s => { s with openf := true }, guardOff], rfl, rfl, nofun⟩
  obtain ⟨b, t, run, peer, leaves⟩ := h.closes body hs
  have closed : Poised (.select n) w 7 t := h.moved (by rw [leaves])
  have waits := closed.step_exec.trans
    (exec_moves (t := t) ⟨closed.inIsr, closed.stands⟩ rfl rfl (by simp [programLength]))
  refine ⟨b, _, run.trans (.head waits (.refl _)), fun ho => (peer ho).1, ?_⟩
  rw [leaves]
  rfl

/-- Offered at rest, SELECT takes the guard and branches on `OPENF` (R101). -/
theorem offered.selects (h : offered (encode (.select n)) s) (he : s.en = true)
    (hc : s.cfg.clips[n.toNat]? = some c) {k : Nat} (hk : k = if s.openf = false then 8 else 2) :
    leadsTo s (movedTo (encode (.select n)) k (underGuard (.select n) s)) ∧
      Poised (.select n) (encode (.select n)) k (movedTo (encode (.select n)) k (underGuard (.select n) s)) := by
  obtain ⟨start, ready⟩ := h.guarded rfl (portCheck_passed nofun (.inr he) (selectorInTable_of_clip rfl hc) nofun)
  have branches := ready.step_exec.trans (exec_select_branches ⟨ready.inIsr, ready.stands⟩)
  rw [← apply_ite (fun k => movedTo (encode (.select n)) k (underGuard (.select n) s))] at branches
  subst hk
  exact ⟨start.trans (.head branches (.refl _)), ready.moved rfl⟩

end Select

/-- Settles O24: with `OPENF = 0` the branch goes past CLOSEBODY to the open. -/
theorem firstSelectionOpensOnly : Obligations.FirstSelectionOpensOnly := by
  intro n c s ho he closed hs hc
  obtain ⟨start, ready⟩ := ho.selects he hc (k := 8) (by simp [closed])
  obtain ⟨a₁, a₂, a₃, a₄, t, run, peer, leaves⟩ := ready.selectOpens hs hc
  refine ⟨a₁, a₂, a₃, a₄, t, start.trans run, peer, ?_⟩
  obtain ⟨⟨_, hfg, _⟩, _, hg, _⟩ := ho
  rw [leaves, hfg, hg]
  rfl

/-- Settles O25: with `OPENF = 1` the branch leads through CLOSEBODY to the same open. -/
theorem reselectionClosesOnceThenOpens : Obligations.ReselectionClosesOnceThenOpens := by
  intro n c s ho he hopen hs hc
  obtain ⟨start, ready⟩ := ho.selects he hc (k := 2) (by simp [hopen])
  obtain ⟨b, u, closes, drained, between⟩ := ready.selectCloses hs
  have silent : Poised (.select n) (encode (.select n)) 8 u := ready.moved (by rw [between])
  have config : u.cfg = s.cfg := (congrArg State.cfg between :)
  obtain ⟨a₁, a₂, a₃, a₄, t, opens, peer, leaves⟩ :=
    silent.selectOpens (congrArg State.sess between :) (config ▸ hc)
  refine ⟨b, a₁, a₂, a₃, a₄, t, start.trans (closes.trans opens),
    fun href => ⟨drained href, peer (config ▸ href)⟩, ?_⟩
  obtain ⟨⟨_, hfg, _⟩, _, hg, _⟩ := ho
  rw [leaves, between, hfg, hg, hopen]
  simp [movedTo, underGuard, hiByte, loByte]

end Sys2Proof.Machine
end

section
/-! PROOFS: the discipline of a host that starts and stops streams only with SELECT (spec/42_playback_select.md R104): its
commands, SELECT's tables of sessions, and each agent's move outside SELECT, which is made and keeps the invariant. -/

namespace Sys2Proof.Machine

/-! ### The discipline's commands -/

/-- Of the disciplined commands SELECT alone awaits a primitive. -/
theorem select_of_awaits {i : Instr} {k : Nat} (hd : disciplinedCommand i = true) (ha : k ∈ awaitSteps i) :
    ∃ n, i = .select n := by
  cases i <;> simp_all [disciplinedCommand, awaitSteps]

/-- Of the disciplined commands SELECT alone takes the guard. -/
theorem select_of_takesGuard {i : Instr} (hd : disciplinedCommand i = true) (hg : takesGuard i = true) :
    ∃ n, i = .select n := by
  cases i <;> simp_all [disciplinedCommand, takesGuard]

/-- The SELECTs of a poll are what a disciplined host writes (R139). -/
theorem pollCommands_disciplined (lines : BitVec 3) : ∀ t ∈ pollCommands lines, disciplinedTurn t = true := by
  simp [pollCommands, disciplinedTurn, decodeWord_encode, disciplinedCommand]

/-! ### Sessions and counts along SELECT (R51, R79, R101) -/

/-- From one micro-step to the next the session stays, whether the next awaits a primitive or not. -/
theorem selectSess_next (n : Byte) {k : Nat} (h2 : 2 ≤ k) (hk : k < 26) (o o' : Bool) :
    selectSess o' (decide (k + 1 ∈ awaitSteps (.select n))) (k + 1) = selectSess o false k := by
  interval_cases k <;> rfl

/-- What is known of the peer's count at a micro-step was known at the one before. -/
theorem selectWcnt_next (n : Byte) {k c : Nat} (h2 : 2 ≤ k) (hk : k < 26)
    (hc : selectWcnt (decide (k + 1 ∈ awaitSteps (.select n))) (k + 1) = some c) : selectWcnt false k = some c := by
  revert hc
  interval_cases k <;> simp [selectWcnt, awaitSteps]

/-- How many address bytes the reference peer has after a primitive (R51). -/
def wcntAfter (x : Sess) (p : Prim) (c : Nat) : Nat :=
  match p with
  | .start | .rstart => 0
  | .send _ => if x = .sw then c + 1 else c
  | .stop | .read _ => c

/-- What SELECT awaits is admitted, and its completion leads to the session and the count of the same micro-step. -/
theorem select_completion {cfg : Config} {n : Byte} {k c : Nat} {p : Prim} (o : Bool) (ha : k ∈ awaitSteps (.select n))
    (hp : selectPrim cfg n k = some p) :
    nextSess cfg (selectSess o true k) p = some (selectSess o false k) ∧
      ((∀ d, selectWcnt true k = some d → c = d) → c ≤ 2 →
        wcntAfter (selectSess o true k) p c ≤ 2 ∧
          ∀ d, selectWcnt false k = some d → wcntAfter (selectSess o true k) p c = d) := by
  obtain (rfl | rfl) | rfl | rfl | rfl | rfl | rfl | rfl :
      (k = 13 ∨ k = 15) ∨ k = 3 ∨ k = 6 ∨ k = 9 ∨ k = 11 ∨ k = 18 ∨ k = 21 := by
    simp only [awaitSteps, List.mem_cons, List.not_mem_nil, or_false] at ha
    omega
  case inl.inl | inl.inr =>
    obtain ⟨d, _, rfl⟩ := Option.map_eq_some_iff.mp hp
    simp +contextual [selectSess, selectWcnt, wcntAfter]
  all_goals
    cases hp
    simp +contextual [selectSess, selectWcnt, wcntAfter, nextSess, cfg.devices_differ.symm]

/-- An admitted primitive completes into the session the grammar gives, but for the reference peer's third byte (R53, R78). -/
theorem complete_counted {s : State} {p : Prim} {n : Sess} (hp : s.inflight = some p)
    (hn : nextSess s.cfg s.sess p = some n) (hw : s.cfg.oracle = .reference → wcntAfter s.sess p s.wcnt ≤ 2) :
    ∃ t, complete s = .next t ∧ t.sess = n ∧
      (s.cfg.oracle = .reference → t.wcnt = wcntAfter s.sess p s.wcnt) := by
  obtain ⟨started, restarted, stopped⟩ := conditionsComplete s
  obtain ⟨start, rstart, stop⟩ := nextSess_condition (cfg := s.cfg) (x := s.sess) (m := n)
  cases p with
  | start => exact ⟨_, started hp, start hn, fun ho => if_pos ho⟩
  | rstart => exact ⟨_, restarted hp, rstart hn, fun ho => if_pos ho⟩
  | stop => exact ⟨_, stopped hp, stop hn, fun _ => rfl⟩
  | read k =>
    obtain ⟨b, q, d, done, _⟩ := complete_read_admitted hp hn
    exact ⟨_, done, rfl, fun _ => rfl⟩
  | send b =>
    cases ho : s.cfg.oracle with
    | unconstrained => exact ⟨_, complete_send_unconstrained hp ho hn, rfl, nofun⟩
    | reference =>
      rw [complete_send_reference hp ho hn]
      by_cases hs : s.sess = .sw
      · simp only [wcntAfter, hs, if_true] at hw ⊢
        obtain hc | hc : s.wcnt = 0 ∨ s.wcnt = 1 := by have := hw ho; omega
        · exact ⟨_, peerTakes_first hs hc, rfl, fun _ => by rw [hc]; rfl⟩
        · exact ⟨_, peerTakes_second hs hc, rfl, fun _ => by rw [hc]; rfl⟩
      · exact ⟨_, peerTakes_outside hs, rfl, fun _ => (if_neg hs).symm⟩

/-- What the engine has in flight was admitted at its issue (R76, R80). -/
theorem EngineInv.admitted_of_busy {s : State} (h : EngineInv s) (hb : s.busy = true) :
    ∃ p, s.inflight = some p ∧ AdmittedIn s.cfg s.sess p := by
  obtain ⟨p, hp⟩ := Option.isSome_iff_exists.mp (h.busy_iff ▸ hb)
  refine ⟨p, hp, ?_⟩
  by_contra not
  exact h.inflight_admitted p hp ((nextSess_eq_none_iff ..).mpr not)

/-- The handler has a micro-step at each of its positions (R107). -/
theorem handlerStep_exists {s : State} (h : s.isrpc ≤ 9) : ∃ t, handlerStep s = .next t := by
  obtain hk | ⟨h1, h4⟩ | hk | hk | hk | hk | hk : s.isrpc = 0 ∨ (1 ≤ s.isrpc ∧ s.isrpc ≤ 4) ∨ s.isrpc = 5 ∨
    s.isrpc = 6 ∨ s.isrpc = 7 ∨ s.isrpc = 8 ∨ s.isrpc = 9 := by omega
  · exact ⟨_, handlerStep_branches hk rfl⟩
  · exact ⟨_, handlerStep_pulls h1 h4⟩
  · exact ⟨_, handlerStep_skips hk rfl rfl⟩
  · exact ⟨_, handlerStep_skips hk rfl rfl⟩
  · exact ⟨_, handlerStep_advances hk rfl rfl⟩
  · exact ⟨_, handlerStep_advances hk rfl rfl⟩
  · exact ⟨_, handlerStep_stays hk rfl rfl⟩

/-! ### Moves outside SELECT -/

section Outside

variable {s t : State} {i : Instr}

/-- With the guard down the one primitive in flight is the handler's, at its micro-step 3 (R107). -/
theorem SelectOnlyInv.pull_of_busy (h : SelectOnlyInv s) (down : s.guard = false) (hb : s.busy = true) :
    s.inIsr = true ∧ s.isrpc = 3 := by
  refine (h.engine.busy_awaited hb).resolve_right ?_
  rintro ⟨i, k, hr, ha⟩
  obtain ⟨n, rfl⟩ := select_of_awaits (h.running_disciplined i k hr) ha
  have up := (h.engine.guard_iff hr).mpr ⟨h.guarded, rfl, (awaitSteps_bounds ha).1⟩
  simp [down] at up

/-- The script, the bus's response, what is observed and a latched tick are free, as long as the host keeps to the
discipline. -/
theorem SelectOnlyInv.environment (h : SelectOnlyInv s) {sc : List Turn} (hsc : ∀ t ∈ sc, disciplinedTurn t = true)
    (r : Bool) (rs : List Reply) (p : Bool) :
    SelectOnlyInv { s with script := sc, responsive := r, replies := rs, tickPend := p } :=
  { h with
    engine := h.engine.environment sc r rs p s.fault
    script_disciplined := hsc }

/-- A move with the guard down that leaves the session, `OPENF`, the guard and `LIM` as they are. -/
theorem SelectOnlyInv.move_outside (h : SelectOnlyInv s) (m : Move s t) (down : s.guard = false)
    (frame : t = { s with fg := t.fg, pos := t.pos, duty := t.duty, data := t.data, en := t.en, busy := t.busy,
                          tickEn := t.tickEn, tickPend := t.tickPend, inIsr := t.inIsr, div := t.div,
                          isrpc := t.isrpc, inflight := t.inflight, trace := t.trace, ptr := t.ptr, wcnt := t.wcnt,
                          ah := t.ah, draws := t.draws })
    (disciplined : ∀ i k, running t = some (i, k) → disciplinedCommand i = true)
    (left : t.pos < s.lim → s.openf = true) (pulling : t.busy = true → t.inflight = some (.read .ack)) :
    SelectOnlyInv t where
  engine := h.engine.move m
  guarded := m.array_config.2 ▸ h.guarded
  no_fault := by rw [frame]; exact h.no_fault
  script_disciplined := by rw [frame]; exact h.script_disciplined
  running_disciplined := disciplined
  outside := fun _ => by rw [frame]; exact ⟨(h.outside down).1, left⟩
  inside := fun n k up => absurd up (by rw [frame]; simp [down])
  pulling := fun _ => pulling
  pull_in_range := h.pull_in_range.move m

/-- The handler's pull completes into the session that streams. -/
theorem SelectOnlyInv.completes_pull (h : SelectOnlyInv s) (down : s.guard = false)
    (hc : completionEnabled s = true) : ∃ t, complete s = .next t ∧ SelectOnlyInv t := by
  obtain ⟨hb, _⟩ := (completionEnabled_iff s).mp hc
  obtain ⟨p, hp, ha⟩ := h.engine.admitted_of_busy hb
  obtain rfl : p = .read .ack := by simpa [hp] using h.pulling down hb
  have streaming : s.sess = .sr := ha
  obtain ⟨t, done, sess, _⟩ := complete_counted (n := .sr) hp (by rw [streaming]; rfl) fun _ => h.engine.wcnt_le
  have frame := complete_admitted done hp ha
  rw [sess, ← streaming] at frame
  refine ⟨t, done, h.move_outside (.completed hc done) down (by rw [frame]) ?_ ?_ ?_⟩
  · rw [frame]; exact h.running_disciplined
  · rw [frame]; exact (h.outside down).2
  · rw [frame]; nofun

/-- The handler is entered with the guard down, and finds what the foreground has left. -/
theorem SelectOnlyInv.enters (h : SelectOnlyInv s) (he : entryEnabled s = true) : SelectOnlyInv (enterHandler s) := by
  obtain ⟨_, _, down⟩ := (entryEnabled_iff s).mp he
  exact h.move_outside (.entered he rfl) down rfl h.running_disciplined (h.outside down).2 (h.pulling down)

/-- The handler's pull is admitted, because a sample left means an open stream, and nothing else is in flight then. -/
theorem SelectOnlyInv.handles (h : SelectOnlyInv s) (hi : s.inIsr = true) :
    ∃ t, handlerStep s = .next t ∧ SelectOnlyInv t := by
  have down := h.engine.guard_in_handler hi
  obtain ⟨sess, opened⟩ := h.outside down
  obtain ⟨t, ht⟩ := handlerStep_exists (h.engine.isr_position hi)
  have mv := handlerStep_cases ht
  have m : Move s t := .handled hi mv
  refine ⟨t, ht, ?_⟩
  cases mv with
  | framing at2 busy _ =>
    obtain ⟨_, at3⟩ := h.pull_of_busy down busy
    omega
  | protocol at2 _ refused _ =>
    have open_stream := opened (h.pull_in_range hi (by omega) (by omega))
    rw [sess, open_stream] at refused
    exact nomatch refused
  | issued _ _ _ moved =>
    subst moved
    exact h.move_outside m down rfl h.running_disciplined opened fun _ => rfl
  | counted at4 moved =>
    subst moved
    have open_stream := opened (h.pull_in_range hi (by omega) (by omega))
    exact h.move_outside m down rfl h.running_disciplined (fun _ => open_stream) (h.pulling down)
  | spun _ _ same => exact same ▸ h
  | branched _ _ _ moved | waited _ _ moved | wroteDuty _ _ _ moved | divided _ moved | left _ moved =>
    subst moved
    exact h.move_outside m down rfl h.running_disciplined opened (h.pulling down)

/-- A disciplined word at the free port is dropped or accepted (R61, R67). -/
theorem SelectOnlyInv.accepts (h : SelectOnlyInv s) (hp : portFree s = true) (hd : disciplinedCommand i = true) :
    SelectOnlyInv (accept i s) := by
  obtain ⟨_, _, down⟩ := h.engine.port_quiet hp
  obtain ⟨_, same⟩ | ⟨hc, taken⟩ := accept_cases i s
  · rw [same]; exact h
  · rw [taken]
    refine h.move_outside (.accepted i hp hc rfl) down rfl ?_ (h.outside down).2 (h.pulling down)
    intro i' k' hr
    rw [running_of_run rfl (decodeWord_encode i)] at hr
    cases hr
    exact hd

/-- A disciplined host writes a command of the discipline, or what is ignored (R33, R138, R139). -/
theorem SelectOnlyInv.hosts {op : HostOp} {rest : List Turn} (h : SelectOnlyInv s) (hs : s.script = .host op :: rest)
    (hr : hostReady op s = true) :
    ∃ t, hostMove op { s with script := rest } = .next t ∧ SelectOnlyInv t := by
  have turns : ∀ t ∈ .host op :: rest, disciplinedTurn t = true := hs ▸ h.script_disciplined
  obtain ⟨turn, others⟩ := List.forall_mem_cons.mp turns
  have spent : SelectOnlyInv { s with script := rest } := h.environment others _ _ _
  have free := portFree_of_hostReady hr
  cases op with
  | read r => exact ⟨_, rfl, h.environment others _ _ _⟩
  | poll lines =>
    exact ⟨_, rfl, h.environment (List.forall_mem_append.mpr ⟨pollCommands_disciplined lines, others⟩) _ _ _⟩
  | write r w =>
    by_cases port : r = 0
    · subst port
      cases hw : decodeWord w with
      | error e => exact ⟨_, writeCommand_illegal _ (by simp [hw]), spent⟩
      | ok i =>
        obtain ⟨hfg, hi⟩ := (portFree_iff s).mp free
        refine ⟨_, (writeCommand_legal _ hw).trans (exec_at_port i hi hfg), spent.accepts free ?_⟩
        simpa [disciplinedTurn, hw] using turn
    · exact ⟨_, if_neg port, spent⟩

/-- A switch, ENABLE or TICKCTL, is one register write with the guard down (R82, R111). -/
theorem SelectOnlyInv.switches {e f : Bool} (h : SelectOnlyInv s) (m : Move s t) (down : s.guard = false)
    (ht : t = { s with en := e, tickEn := f, fg := .idle }) : SelectOnlyInv t := by
  subst ht
  exact h.move_outside m down rfl nofun (h.outside down).2 (h.pulling down)

/-- A power-on restores it, whatever stood (R42, R141). -/
theorem SelectOnlyInv.powered {rest : List Turn} (h : SelectOnlyInv s) (hs : ∀ t ∈ rest, disciplinedTurn t = true) :
    SelectOnlyInv (powerCycle rest s) where
  engine := engineInv_atPowerOn _ _ _ _ h.engine.mem_wf h.engine.mem_below
  guarded := h.guarded
  no_fault := rfl
  script_disciplined := hs
  running_disciplined := nofun
  outside := fun _ => ⟨rfl, nofun⟩
  inside := nofun
  pulling := nofun
  pull_in_range := nofun

end Outside

end Sys2Proof.Machine
end

section
/-! PROOFS: SELECT under the discipline, micro-step by micro-step, and that a host that starts and stops streams only with
SELECT never meets a fault (spec/42_playback_select.md R101, R104). -/

namespace Sys2Proof.Machine

/-! ### SELECT in progress -/

/-- SELECT stands at its micro-step `k`, under the discipline. -/
structure Selecting (n : Byte) (w : Word) (k : Nat) (s : State) : Prop where
  inv : SelectOnlyInv s
  inIsr : s.inIsr = false
  stands : s.fg = .run w k
  decodes : decodeWord w = .ok (.select n)

/-- What the discipline's invariant says of SELECT at its micro-step `k`. -/
structure AtSelectStep (n : Byte) (k : Nat) (s : State) : Prop where
  sess : s.sess = selectSess s.openf s.busy k
  prim : s.busy = true → s.inflight = selectPrim s.cfg n k
  wcnt : s.cfg.oracle = .reference → ∀ c, selectWcnt s.busy k = some c → s.wcnt = c
  opened : 2 ≤ k → k ≤ 7 → s.openf = true
  set : k = 26 → s.openf = true

theorem exists_run_of_running {s : State} {i : Instr} {k : Nat} (hr : running s = some (i, k)) :
    ∃ w, s.fg = .run w k ∧ decodeWord w = .ok i := by
  unfold running commandAt at hr
  split at hr
  · cases hr
  · rename_i w j hfg
    split at hr <;> cases hr
    exact ⟨w, hfg, ‹_›⟩

section Selecting

variable {s t : State} {i : Instr} {n : Byte} {c : Clip} {w : Word} {k : Nat}

/-- The guard is up inside SELECT alone (R92). -/
theorem SelectOnlyInv.selecting (h : SelectOnlyInv s) (up : s.guard = true) :
    ∃ n w k, 1 ≤ k ∧ Selecting n w k s := by
  obtain ⟨_, hi, i, k, hr, takes, h1⟩ := h.engine.guard_inside up
  obtain ⟨n, rfl⟩ := select_of_takesGuard (h.running_disciplined i k hr) takes
  obtain ⟨w, hfg, hw⟩ := exists_run_of_running hr
  exact ⟨n, w, k, h1, h, hi, hfg, hw⟩

theorem Selecting.running (g : Selecting n w k s) : running s = some (.select n, k) :=
  running_of_run g.stands g.decodes

theorem Selecting.guard_iff (g : Selecting n w k s) : s.guard = true ↔ 1 ≤ k := by
  rw [g.inv.engine.guard_iff g.running]
  simp [g.inv.guarded, takesGuard]

theorem Selecting.at_step (g : Selecting n w k s) (h1 : 1 ≤ k) : AtSelectStep n k s := by
  obtain ⟨sess, prim, wcnt, opened, set⟩ := g.inv.inside n k (g.guard_iff.mpr h1) g.running
  exact ⟨sess, prim, wcnt, opened, set⟩

/-- What is in flight is what SELECT awaits (R76, R77). -/
theorem Selecting.awaiting (g : Selecting n w k s) (hb : s.busy = true) : k ∈ awaitSteps (.select n) := by
  obtain ⟨i, k', hr, ha⟩ := g.inv.engine.busy_in_foreground hb (by simp [g.inIsr])
  obtain ⟨rfl, rfl⟩ : Instr.select n = i ∧ k = k' := by simpa [g.running] using hr
  exact ha

theorem Selecting.free (g : Selecting n w k s) (hn : k ∉ awaitSteps (.select n)) : s.busy = false :=
  Bool.eq_false_iff.mpr fun hb => hn (g.awaiting hb)

/-- The port has checked the selector (R67). -/
theorem Selecting.clip (g : Selecting n w k s) : ∃ c, s.cfg.clips[n.toNat]? = some c := by
  obtain ⟨_, _, hs⟩ := g.inv.engine.running_accepted g.stands g.decodes
  have inside : n.toNat < s.cfg.clips.length := of_decide_eq_true hs
  exact ⟨_, List.getElem?_eq_getElem inside⟩

/-- A move to a micro-step of SELECT under the guard. -/
theorem SelectOnlyInv.move_to_select (h : SelectOnlyInv s) (m : Move s t) (fault : t.fault = s.fault)
    (script : t.script = s.script) (up : t.guard = true) (hr : Machine.running t = some (.select n, k))
    (reached : AtSelectStep n k t) : SelectOnlyInv t where
  engine := h.engine.move m
  guarded := m.array_config.2 ▸ h.guarded
  no_fault := fault.trans h.no_fault
  script_disciplined := script ▸ h.script_disciplined
  running_disciplined := by
    intro i' k' hr'
    obtain ⟨rfl, rfl⟩ : Instr.select n = i' ∧ k = k' := by simpa [hr] using hr'
    rfl
  outside := fun down => absurd up (by simp [down])
  inside := by
    intro n' k' _ hr'
    obtain ⟨rfl, rfl⟩ : n = n' ∧ k = k' := by simpa [hr] using hr'
    exact ⟨reached.sess, reached.prim, reached.wcnt, reached.opened, reached.set⟩
  pulling := fun down => absurd up (by simp [down])
  pull_in_range := h.pull_in_range.move m

/-- What SELECT awaits completes into the session of its listing. -/
theorem Selecting.completes (g : Selecting n w k s) (h1 : 1 ≤ k) (hc : completionEnabled s = true) :
    ∃ t, complete s = .next t ∧ SelectOnlyInv t := by
  obtain ⟨hb, _⟩ := (completionEnabled_iff s).mp hc
  obtain ⟨p, hp, ha⟩ := g.inv.engine.admitted_of_busy hb
  obtain ⟨sess, prim, wcnt, opened, set⟩ := g.at_step h1
  rw [hb] at sess wcnt
  obtain ⟨next, counts⟩ := select_completion (c := s.wcnt) s.openf (g.awaiting hb) ((prim hb).symm.trans hp)
  rw [← sess] at next counts
  have counted (ho : s.cfg.oracle = .reference) := counts (wcnt ho) g.inv.engine.wcnt_le
  obtain ⟨t, done, sess', wcnt'⟩ := complete_counted hp next fun ho => (counted ho).1
  have frame := complete_admitted done hp ha
  have config : t.cfg = s.cfg := by rw [frame]
  have freed : t.busy = false := by rw [frame]
  have reached : AtSelectStep n k t :=
    { sess := by rw [sess', freed, frame]
      prim := fun hb' => absurd hb' (by simp [freed])
      wcnt := by
        intro ho c hc
        rw [config] at ho
        rw [freed] at hc
        exact (wcnt' ho).trans ((counted ho).2 c hc)
      opened := by rw [frame]; exact opened
      set := by rw [frame]; exact set }
  refine ⟨t, done, g.inv.move_to_select (.completed hc done) (by rw [frame]) (by rw [frame]) ?_ ?_ reached⟩
  · rw [frame]; exact g.guard_iff.mpr h1
  · rw [frame]; exact g.running

/-! ### SELECT's micro-steps (R101) -/

/-- Past its branch SELECT goes on to the next micro-step, in the session it is in. -/
theorem Selecting.next (g : Selecting n w k s) (h2 : 2 ≤ k) (hk : k < 26) (free : s.busy = false) (m : Move s t)
    (frame : t = { s with fg := .run w (k + 1), pos := t.pos, lim := t.lim, duty := t.duty, div := t.div,
                          openf := t.openf, trace := t.trace, inflight := t.inflight, busy := t.busy })
    (busy : t.busy = decide (k + 1 ∈ awaitSteps (.select n)))
    (prim : t.busy = true → t.inflight = selectPrim s.cfg n (k + 1))
    (keeps : s.openf = true → t.openf = true) (sets : k = 25 → t.openf = true) : SelectOnlyInv t := by
  obtain ⟨sess, _, wcnt, opened, _⟩ := g.at_step (by omega)
  have config : t.cfg = s.cfg := by rw [frame]
  have reached : AtSelectStep n (k + 1) t :=
    { sess := by rw [busy, selectSess_next n h2 hk s.openf, ← free, ← sess, frame]
      prim := by rw [config]; exact prim
      wcnt := by
        intro ho c hc
        rw [config] at ho
        rw [busy] at hc
        rw [show t.wcnt = s.wcnt by rw [frame]]
        exact wcnt ho c (free ▸ selectWcnt_next n h2 hk hc)
      opened := fun _ h7 => keeps (opened h2 (by omega))
      set := fun h26 => sets (by omega) }
  refine g.inv.move_to_select m (by rw [frame]) (by rw [frame]) ?_ (running_of_run (by rw [frame]) g.decodes) reached
  rw [frame]
  exact g.guard_iff.mpr (by omega)

/-- `issue`: what SELECT is to await next is admitted in the session it has reached. -/
theorem Selecting.issues {p : Prim} (g : Selecting n w k s) (ha : k + 1 ∈ awaitSteps (.select n))
    (hp : selectPrim s.cfg n (k + 1) = some p) (m : Move s (issueLeaves p w k s)) :
    SelectOnlyInv (issueLeaves p w k s) := by
  obtain ⟨h2, hk, hn⟩ : 2 ≤ k ∧ k < 25 ∧ k ∉ awaitSteps (.select n) := by
    simp only [awaitSteps, List.mem_cons, List.not_mem_nil, or_false] at ha ⊢
    omega
  have free := g.free hn
  have admitted : AdmittedIn s.cfg s.sess p := by
    by_contra not
    obtain ⟨next, _⟩ := select_completion (c := 0) s.openf ha hp
    rw [← decide_eq_true ha, selectSess_next n h2 (by omega) s.openf, ← free, ← (g.at_step (by omega)).sess] at next
    exact nomatch ((nextSess_eq_none_iff ..).mpr not).symm.trans next
  rw [issueLeaves_admitted free admitted] at m ⊢
  exact g.next h2 (by omega) free m rfl (decide_eq_true ha).symm (fun _ => hp.symm) id (by omega)

/-- `await`: it spins, or goes on after the completion. -/
theorem Selecting.awaits (g : Selecting n w k s) (ha : k ∈ awaitSteps (.select n)) (m : Move s (awaitLeaves w k s)) :
    SelectOnlyInv (awaitLeaves w k s) := by
  obtain ⟨h2, hk, hn⟩ : 2 ≤ k ∧ k < 25 ∧ k + 1 ∉ awaitSteps (.select n) := by
    simp only [awaitSteps, List.mem_cons, List.not_mem_nil, or_false] at ha ⊢
    omega
  cases hb : s.busy with
  | true =>
    rw [awaitLeaves, if_pos hb]
    exact g.inv
  | false =>
    rw [awaitLeaves, if_neg (by simp [hb])] at m ⊢
    exact g.next h2 (by omega) hb m rfl (hb.trans (decide_eq_false hn).symm) (by simp [movedTo, hb]) id (by omega)

/-- A register write or a delay. -/
theorem Selecting.writes (g : Selecting n w k s) (h2 : 2 ≤ k) (hk : k < 26)
    (hn : k ∉ awaitSteps (.select n) ∧ k + 1 ∉ awaitSteps (.select n)) (m : Move s t)
    (frame : t = { s with fg := .run w (k + 1), pos := t.pos, lim := t.lim, duty := t.duty, div := t.div,
                          openf := t.openf, trace := t.trace })
    (keeps : s.openf = true → t.openf = true) (sets : k = 25 → t.openf = true) : SelectOnlyInv t := by
  have free := g.free hn.1
  have still : t.busy = false := (congrArg State.busy frame :).trans free
  exact g.next h2 hk free m (by rw [frame]) (still.trans (decide_eq_false hn.2).symm) (by simp [still]) keeps sets

/-- SELECT starts where the guard was down, so in the session that `OPENF` tells. -/
theorem Selecting.starts (g : Selecting n w 0 s) (m : Move s (selectLeaves c w 0 s)) :
    SelectOnlyInv (selectLeaves c w 0 s) := by
  have down : s.guard = false := by simpa using g.guard_iff
  have free := g.free (by simp [awaitSteps])
  have reached : AtSelectStep n 1 (selectLeaves c w 0 s) :=
    { sess := (g.inv.outside down).1
      prim := fun hb => nomatch free.symm.trans hb
      wcnt := nofun
      opened := by omega
      set := nofun }
  refine g.inv.move_to_select m rfl rfl ?_ (running_of_run rfl g.decodes) reached
  simp [selectLeaves, movedTo, guardTaken, g.inv.guarded]

/-- The branch goes past the close exactly when no session is open. -/
theorem Selecting.branches (g : Selecting n w 1 s) (m : Move s (selectLeaves c w 1 s)) :
    SelectOnlyInv (selectLeaves c w 1 s) := by
  obtain ⟨sess, _⟩ := g.at_step le_rfl
  have up := g.guard_iff.mpr le_rfl
  have free := g.free (by simp [awaitSteps])
  cases ho : s.openf with
  | false =>
    have leaves : selectLeaves c w 1 s = movedTo w 8 s := if_pos ho
    have reached : AtSelectStep n 8 (movedTo w 8 s) :=
      { sess := by rw [ho] at sess; exact sess
        prim := fun hb => nomatch free.symm.trans hb
        wcnt := nofun
        opened := by omega
        set := nofun }
    rw [leaves] at m ⊢
    exact g.inv.move_to_select m rfl rfl up (running_of_run rfl g.decodes) reached
  | true =>
    have leaves : selectLeaves c w 1 s = movedTo w 2 s := if_neg (by simp [ho])
    have reached : AtSelectStep n 2 (movedTo w 2 s) :=
      { sess := by rw [ho] at sess; exact sess
        prim := fun hb => nomatch free.symm.trans hb
        wcnt := nofun
        opened := fun _ _ => ho
        set := nofun }
    rw [leaves] at m ⊢
    exact g.inv.move_to_select m rfl rfl up (running_of_run rfl g.decodes) reached

/-- SELECT ends with `OPENF = 1` and the session streaming, as R104 has it with the guard down. -/
theorem Selecting.ends (g : Selecting n w 26 s) (m : Move s (selectLeaves c w 26 s)) :
    SelectOnlyInv (selectLeaves c w 26 s) where
  engine := g.inv.engine.move m
  guarded := g.inv.guarded
  no_fault := g.inv.no_fault
  script_disciplined := g.inv.script_disciplined
  running_disciplined := nofun
  outside := fun _ => by
    obtain ⟨sess, _, _, _, set⟩ := g.at_step (by omega)
    have opened : (selectLeaves c w 26 s).openf = true := set rfl
    rw [opened]
    exact ⟨sess, fun _ => rfl⟩
  inside := nofun
  pulling := fun _ hb => nomatch (g.free (by simp [awaitSteps])).symm.trans hb
  pull_in_range := g.inv.pull_in_range.move m

/-- Every micro-step of SELECT's listing keeps the discipline, each as its kind of micro-step does. -/
theorem Selecting.leaves (g : Selecting n w k s) (hc : s.cfg.clips[n.toNat]? = some c) (hk : k < 27)
    (m : Move s (selectLeaves c w k s)) : SelectOnlyInv (selectLeaves c w k s) := by
  match k, g, hk, m with
  | 0, g, _, m => exact g.starts m
  | 1, g, _, m => exact g.branches m
  | 2, g, _, m | 5, g, _, m | 8, g, _, m | 10, g, _, m | 17, g, _, m | 20, g, _, m =>
    exact g.issues (by simp [awaitSteps]) rfl m
  | 12, g, _, m | 14, g, _, m =>
    have entry : clipAt s.cfg n = some c := hc
    exact g.issues (by simp [awaitSteps]) (by rw [selectPrim, entry]; rfl) m
  | 3, g, _, m | 6, g, _, m | 9, g, _, m | 11, g, _, m | 13, g, _, m | 15, g, _, m | 18, g, _, m | 21, g, _, m =>
    exact g.awaits (by simp [awaitSteps]) m
  | 4, g, _, m | 7, g, _, m | 16, g, _, m | 19, g, _, m | 22, g, _, m | 23, g, _, m | 24, g, _, m =>
    exact g.writes (by omega) (by omega) (by simp [awaitSteps]) m rfl id nofun
  | 25, g, _, m => exact g.writes (by omega) (by omega) (by simp [awaitSteps]) m rfl (fun _ => rfl) fun _ => rfl
  | 26, g, _, m => exact g.ends m
  | _ + 27, _, hk, _ => omega

/-! ### The block's moves -/

/-- What is in flight is the handler's pull, or what SELECT awaits. -/
theorem SelectOnlyInv.completes (h : SelectOnlyInv s) (hc : completionEnabled s = true) :
    ∃ t, complete s = .next t ∧ SelectOnlyInv t := by
  cases hg : s.guard with
  | false => exact h.completes_pull hg hc
  | true =>
    obtain ⟨n, w, k, h1, g⟩ := h.selecting hg
    exact g.completes h1 hc

/-- The command in progress is ENABLE, TICKCTL or SELECT, and goes on. -/
theorem SelectOnlyInv.executes (h : SelectOnlyInv s) (hi : s.inIsr = false) (hfg : s.fg = .run w k)
    (hw : decodeWord w = .ok i) : ∃ t, exec i s = .next t ∧ SelectOnlyInv t := by
  have hr := running_of_run hfg hw
  obtain ⟨hk, _, _⟩ := h.engine.running_accepted hfg hw
  have hd := h.running_disciplined i k hr
  have move {t : State} (ht : exec i s = .next t) : Move s t :=
    .stepped hi w k i hfg hw (foreground_cases (exec_of_standsAt ⟨hi, hfg⟩ ▸ ht))
  have down (hg : takesGuard i = false) : s.guard = false :=
    Bool.eq_false_iff.mpr fun up => by simpa [hg] using (h.engine.guard_iff hr).mp up
  cases i with
  | enable =>
    obtain rfl : k = 0 := Nat.lt_one_iff.mp hk
    have run := enableSetsEn.1 s w ⟨hi, hfg⟩
    exact ⟨_, run, h.switches (move run) (down rfl) rfl⟩
  | tickctl e =>
    obtain rfl : k = 0 := Nat.lt_one_iff.mp hk
    have run : exec (.tickctl e) s = .next _ := exec_ends ⟨hi, hfg⟩ rfl rfl rfl
    exact ⟨_, run, h.switches (move run) (down rfl) rfl⟩
  | select n =>
    have g : Selecting n w k s := ⟨h, hi, hfg, hw⟩
    obtain ⟨c, hc⟩ := g.clip
    have run := selectStepByStep n c s w k ⟨hi, hfg⟩ hc hk
    exact ⟨_, run, g.leaves hc hk (move run)⟩
  | pull => exact absurd hk (Nat.not_lt_zero k)
  | disable | start | rstart | stop | send _ | read _ | openClip _ | close => exact nomatch hd

/-- The sequencer goes on with the handler, enters it, waits, or goes on with the command in progress (R127, R128). -/
theorem SelectOnlyInv.sequences (h : SelectOnlyInv s) : ∃ t, sequencerMove s = .next t ∧ SelectOnlyInv t := by
  obtain ⟨hi, he⟩ | ⟨_, hen, he⟩ | ⟨_, _, _, he⟩ | ⟨hi, _, w, k, i, hfg, hw, he⟩ | ⟨_, _, w, k, hfg, hw, _⟩ :=
    sequencerMove_cases s
  · rw [he]; exact h.handles hi
  · exact ⟨_, he, h.enters hen⟩
  · exact ⟨_, he, h⟩
  · rw [he]; exact h.executes hi hfg hw
  · obtain ⟨i, decodes, _⟩ := h.engine.run_accepted w k hfg
    exact absurd decodes (hw i)

/-- With no move of the environment the engine completes, or the sequencer goes on. -/
theorem SelectOnlyInv.blocks (h : SelectOnlyInv s) : ∃ t, blockMove s = .next t ∧ SelectOnlyInv t := by
  unfold blockMove
  split
  · exact h.completes ‹_›
  · exact h.sequences

/-! ### Every step -/

theorem step_of_no_fault (hf : s.fault = none) : step s = scriptMove s := by
  simp only [step, agentStep, hf]

/-- Every turn of a disciplined script is taken, and keeps the invariant of the discipline. -/
theorem SelectOnlyInv.steps (h : SelectOnlyInv s) : ∃ t, step s = .next t ∧ SelectOnlyInv t := by
  rw [step_of_no_fault h.no_fault, scriptMove]
  cases hs : s.script with
  | nil => exact h.blocks
  | cons turn rest =>
    have turns : ∀ t ∈ turn :: rest, disciplinedTurn t = true := hs ▸ h.script_disciplined
    obtain ⟨_, others⟩ := List.forall_mem_cons.mp turns
    have spent : SelectOnlyInv { s with script := rest } := h.environment others _ _ _
    cases turn with
    | host op =>
      simp only
      split
      · exact h.hosts hs ‹_›
      · exact h.blocks
    | clock =>
      refine ⟨_, rfl, ?_⟩
      unfold fireTick
      split
      · exact h.environment others _ _ _
      · exact spent
    | bus r => exact ⟨_, rfl, h.environment others _ _ _⟩
    | engine =>
      simp only [engineMove]
      split
      · exact spent.completes ‹_›
      · exact ⟨_, rfl, spent⟩
    | sequencer => exact spent.sequences
    | powerOn => exact ⟨_, rfl, h.powered others⟩

end Selecting

/-- Settles O55: every agent's move is made and keeps the invariant, under which no fault is recorded; at the free port the
guard is down. -/
theorem selectOnlyHostNeverFaults : Obligations.SelectOnlyHostNeverFaults := by
  constructor
  · intro s h
    obtain ⟨t, run, keeps⟩ := h.steps
    exact ⟨t, run, keeps.no_fault, keeps⟩
  · intro s h hfg hi
    obtain ⟨_, _, down⟩ := h.engine.port_quiet ((portFree_iff s).mpr ⟨hfg, hi⟩)
    obtain ⟨sess, _⟩ := h.outside down
    exact ⟨fun closed => by rw [sess, closed]; rfl, fun opened => by rw [sess, opened]; rfl⟩

end Sys2Proof.Machine
end

section
/-! PROOFS of the statements on the sample clock (spec/43_sample_clock_pwm.md R106 to R111): TICKCTL, the handler micro-step
by micro-step, what a step inside it leaves alone, and its runs from entry to exit. -/

namespace Sys2Proof.Machine

/-! ### TICKCTL (R111) -/

/-- Settles O12: the micro-step is one register write, and TICKCTL is exempt from the check of `EN`. -/
theorem tickctlWritesTickEn : Obligations.TickctlWritesTickEn := by
  refine ⟨fun e s w h => exec_advances (t := { s with tickEn := e }) h rfl rfl, fun e s hi hfg => ?_⟩
  have word : encode (.tickctl e) = if e then 0x0C01#16 else 0x0C00#16 := by cases e <;> rfl
  rw [← word]
  exact exec_accepted hi hfg (portCheck_passed nofun (.inl rfl) rfl nofun)

/-! ### The handler, micro-step by micro-step (R107) -/

/-- Settles O21: the divider's branch, the pull, the three writes of `DUTY`, the count and the exit. -/
theorem handlerStepByStep : Obligations.HandlerStepByStep := by
  intro s h
  unfold handlerLeaves
  split
  case h_1 hk =>
    rw [handlerStep_branches hk rfl]
    by_cases due : s.div = 0 <;> simp [due]
  case h_2 hk => exact handlerStep_skips hk rfl rfl
  case h_3 hk => exact handlerStep_skips hk rfl rfl
  case h_4 hk => exact handlerStep_advances hk rfl rfl
  case h_5 hk => exact handlerStep_advances hk rfl rfl
  case h_6 hk => exact handlerStep_stays hk rfl rfl
  case h_7 =>
    simp only [imp_false] at *
    exact handlerStep_pulls (by omega) (by omega)

/-! ### What a step inside the handler leaves alone (R106, R129, R132) -/

/-- While the handler runs only the environment, the bus engine and the handler itself move (R30). -/
theorem Move.inside_handler {s t : State} (m : Move s t) (hi : s.inIsr = true) :
    t = { s with script := t.script, responsive := t.responsive, replies := t.replies, tickPend := t.tickPend } ∨
      complete s = .next t ∨ HandlerMove s t := by
  cases m with
  | environment frame => exact .inl frame
  | completed _ done => exact .inr (.inl done)
  | handled _ move => exact .inr (.inr move)
  | accepted i free =>
    obtain ⟨_, outside⟩ := (portFree_iff s).mp free
    simp [hi] at outside
  | entered enabled =>
    obtain ⟨_, outside, _⟩ := (entryEnabled_iff s).mp enabled
    simp [hi] at outside
  | stepped outside => simp [hi] at outside

/-- The one primitive the handler issues is READ(ACK). -/
theorem HandlerMove.inflight {s t : State} (m : HandlerMove s t) :
    t.inflight = s.inflight ∨ t.inflight = some (.read .ack) := by
  cases m with
  | issued _ _ _ moved => subst moved; exact .inr rfl
  | branched | framing | protocol | spun | waited | counted | wroteDuty | divided | left =>
    subst t
    exact .inl rfl

/-- Only the handler's last micro-step leaves it, and writes nothing else (R129). -/
theorem HandlerMove.exit {s t : State} (m : HandlerMove s t) (hi : s.inIsr = true) (ht : t.inIsr = false) :
    s.isrpc = 9 ∧ t = { s with inIsr := false } := by
  cases m with
  | left at9 moved => exact ⟨at9, moved⟩
  | branched | framing | protocol | issued | spun | waited | counted | wroteDuty | divided =>
    subst t
    exact absurd (hi.symm.trans ht) nofun

/-- The foreground's position and the registers that are the foreground's to write are as before. -/
structure SameForeground (s t : State) : Prop where
  fg : t.fg = s.fg
  lim : t.lim = s.lim
  openf : t.openf = s.openf
  en : t.en = s.en
  tickEn : t.tickEn = s.tickEn
  guard : t.guard = s.guard

/-- No move inside the handler is the foreground's. -/
theorem Move.sameForeground {s t : State} (m : Move s t) (hi : s.inIsr = true) : SameForeground s t := by
  obtain frame | done | hm := m.inside_handler hi
  · rw [frame]; exact ⟨rfl, rfl, rfl, rfl, rfl, rfl⟩
  · rw [complete_frame done]; exact ⟨rfl, rfl, rfl, rfl, rfl, rfl⟩
  · rw [hm.frame]; exact ⟨rfl, rfl, rfl, rfl, rfl, rfl⟩

/-- With nothing in flight, a move inside the handler issues READ(ACK) or nothing, for a completion needs a primitive in
flight. -/
theorem Move.inflight_inside {s t : State} (m : Move s t) (hi : s.inIsr = true) (hp : s.inflight = none) :
    t.inflight = none ∨ t.inflight = some (.read .ack) := by
  obtain frame | done | hm := m.inside_handler hi
  · exact .inl ((congrArg State.inflight frame :).trans hp)
  · obtain ⟨p, flying, _⟩ := complete_cases done
    exact absurd (hp.symm.trans flying) nofun
  · exact hm.inflight.imp_left (·.trans hp)

/-- A move that ends the handler is its last micro-step. -/
theorem Move.exit {s t : State} (m : Move s t) (hi : s.inIsr = true) (ht : t.inIsr = false) :
    s.isrpc = 9 ∧ t = { s with inIsr := false } := by
  obtain frame | done | hm := m.inside_handler hi
  · exact absurd (hi.symm.trans ((congrArg State.inIsr frame :).symm.trans ht)) nofun
  · exact absurd (hi.symm.trans ((congrArg State.inIsr (complete_frame done) :).symm.trans ht)) nofun
  · exact hm.exit hi ht

/-- Settles O37: the step is a move inside the handler, once the script is put aside. -/
theorem handlerConfined : Obligations.HandlerConfined := by
  intro s t h hi hp
  obtain ⟨sc, m⟩ := step_move h hp
  obtain ⟨fg, lim, openf, en, tickEn, guard⟩ := m.sameForeground hi
  refine ⟨fg, lim, openf, en, tickEn, guard, m.inflight_inside hi, fun ht => ?_⟩
  obtain ⟨at9, rfl⟩ := m.exit hi ht
  exact ⟨at9, rfl⟩

/-! ### Runs of the handler while the environment makes no move -/

/-- With no move of the environment, the engine completes before the sequencer goes on. -/
theorem step_of_completion {s : State} (hf : s.fault = none) (hs : s.script = []) (hc : completionEnabled s = true) :
    step s = complete s := by
  simp [step, agentStep, hf, scriptMove, hs, blockMove, hc]

/-- The handler stands at micro-step `k` with nothing in flight, and the environment makes no move. -/
structure Handling (k : Nat) (s : State) : Prop where
  fault : s.fault = none
  inside : s.inIsr = true
  stands : s.isrpc = k
  free : s.busy = false
  landed : s.inflight = none
  responsive : s.responsive = true
  script : s.script = []

theorem handlerEntered.handling {s : State} (h : handlerEntered s) : Handling 0 s := by
  obtain ⟨fault, inside, stands, free, landed, responsive, script⟩ := h
  exact ⟨fault, inside, stands, free, landed, responsive, script⟩

/-- The handler has handed READ(ACK) over and awaits it at micro-step 3. -/
def pullAwaited (s : State) : State := { s with inflight := some (.read .ack), busy := true, isrpc := 3 }

section Handling

variable {k j : Nat} {s t u : State}

/-- It goes on to stand at another micro-step when only what the handler works on has been written. -/
theorem Handling.moved (h : Handling k s)
    (ht : t = { s with isrpc := j, pos := t.pos, duty := t.duty, data := t.data, div := t.div, trace := t.trace,
                       ptr := t.ptr, draws := t.draws }) : Handling j t := by
  rw [ht]
  exact ⟨h.fault, h.inside, rfl, h.free, h.landed, h.responsive, h.script⟩

/-- The next step is the handler's, and leaves what R107 lists. -/
theorem Handling.step_leaves (h : Handling k s) (hk : k ≤ 9) : step s = .next (handlerLeaves s) := by
  rw [step_of_silence h.fault h.script (by simp [completionEnabled, h.free]), sequencerMove_in_handler h.inside,
    handlerStepByStep s (h.stands.trans_le hk)]

/-- A run of the handler begins with that step. -/
theorem Handling.goes_on (h : Handling k s) (hk : k ≤ 9) (hl : handlerLeaves s = t) (ht : leadsTo t u) : leadsTo s u :=
  .head (h.step_leaves hk) (hl ▸ ht)

/-- Micro-steps 8 and 9: the tick is counted and the handler left. -/
theorem Handling.counts (h : Handling 8 s) :
    leadsTo s { s with inIsr := false, isrpc := 9, div := (s.div + 1) % s.cfg.ticksPerSample } := by
  have counted : Handling 9 { s with div := (s.div + 1) % s.cfg.ticksPerSample, isrpc := 9 } := h.moved rfl
  exact h.goes_on (by omega) (by simp only [handlerLeaves, h.stands])
    (counted.goes_on (by omega) rfl (.refl _))

/-- The one write of `DUTY` in a run, at micro-step 5, 6 or 7, and what follows it. -/
theorem Handling.renders {v : Byte} (h : Handling k s) (hk : k ≤ 9)
    (hl : handlerLeaves s = { s with duty := v, trace := s.trace ++ [.duty v], isrpc := 8 }) :
    leadsTo s { s with inIsr := false, isrpc := 9, duty := v, trace := s.trace ++ [.duty v],
                       div := (s.div + 1) % s.cfg.ticksPerSample } := by
  have rendered : Handling 8 { s with duty := v, trace := s.trace ++ [.duty v], isrpc := 8 } := h.moved rfl
  exact h.goes_on hk hl rendered.counts

/-- READ(ACK), issued at micro-step 2 and awaited at 3: the engine completes it in between. -/
theorem Handling.reads (h : Handling 2 s) (hs : s.sess = .sr) :
    ∃ b t, leadsTo s t ∧
      (s.cfg.oracle = .reference → b = memRead s s.ptr ∧ t.ptr = (s.ptr + 1) % s.cfg.eepromSize) ∧
      t = { s with isrpc := 4, data := b, trace := s.trace ++ [.rx b .ack], ptr := t.ptr, draws := t.draws } := by
  have issued : handlerLeaves s = pullAwaited s := by
    simp [handlerLeaves, pullLeaves, handlerIssueLeaves, pullAwaited, h.stands, h.free, hs]
  have hn : nextSess s.cfg s.sess (.read .ack) = some s.sess := by rw [hs]; rfl
  obtain ⟨b, q, d, done, supplied⟩ := complete_read_admitted (s := pullAwaited s) rfl hn
  have enabled : completionEnabled (pullAwaited s) = true := (completionEnabled_iff _).mpr ⟨rfl, h.responsive⟩
  have completes := (step_of_completion (s := pullAwaited s) h.fault h.script enabled).trans done
  have waits : Handling 3 { s with data := b, inflight := none, busy := false, trace := s.trace ++ [.rx b .ack],
                                   ptr := q, draws := d, isrpc := 3 } :=
    ⟨h.fault, h.inside, rfl, rfl, rfl, h.responsive, h.script⟩
  refine ⟨b, _, h.goes_on (by omega) issued (.head completes (waits.goes_on (by omega) rfl (.refl _))), supplied, ?_⟩
  simp [handlerLeaves, pullLeaves, h.free, h.landed]

/-- Micro-steps 1 to 4 with a sample left: one byte is pulled and counted (R98). -/
theorem Handling.pulls (h : Handling 1 s) (left : s.pos < s.lim) (hs : s.sess = .sr) :
    ∃ b t, leadsTo s t ∧
      (s.cfg.oracle = .reference → b = memRead s s.ptr ∧ t.ptr = (s.ptr + 1) % s.cfg.eepromSize) ∧
      t = { s with isrpc := 5, data := b, pos := s.pos + 1#16, trace := s.trace ++ [.rx b .ack], ptr := t.ptr,
                   draws := t.draws } := by
  have branched : handlerLeaves s = { s with isrpc := 2 } := by
    simp [handlerLeaves, pullLeaves, h.stands, left]
  have ready : Handling 2 { s with isrpc := 2 } := h.moved rfl
  obtain ⟨b, t, read, supplied, leaves⟩ := ready.reads hs
  have counts : Handling 4 t := h.moved (by rw [leaves])
  have counted : handlerLeaves t = { t with pos := t.pos + 1#16, isrpc := 5 } := by
    simp only [handlerLeaves, pullLeaves, counts.stands]
  refine ⟨b, _, h.goes_on (by omega) branched (read.trans (counts.goes_on (by omega) counted (.refl _))),
    supplied, ?_⟩
  rw [leaves]

/-- The entry finds the divider at 0, and a sample is due. -/
theorem Handling.due (h : Handling 0 s) (hd : s.div = 0) :
    Handling 1 { s with isrpc := 1 } ∧ step s = .next { s with isrpc := 1 } := by
  refine ⟨h.moved rfl, ?_⟩
  rw [h.step_leaves (by omega)]
  simp [handlerLeaves, h.stands, hd]

end Handling

/-- Settles O26: the sample due is pulled, rendered at micro-step 5, and the tick counted. -/
theorem pullingTickPlaysOneSample : Obligations.PullingTickPlaysOneSample := by
  intro s h hd left hs
  obtain ⟨due, branched⟩ := h.handling.due hd
  obtain ⟨b, t, pulled, supplied, leaves⟩ := due.pulls left hs
  have ready : Handling 5 t := due.moved (by rw [leaves])
  have rendered := ready.renders (v := t.data) (by omega) (by simp only [handlerLeaves, ready.stands])
  refine ⟨b, _, .head branched (pulled.trans rendered), supplied, ?_⟩
  rw [leaves]
  simp [hd]

/-- Settles O27: with no sample left 0 is written at micro-step 7, and between samples `DUTY` is written again at micro-step
6. -/
theorem otherTicksLeaveTheBusAlone : Obligations.OtherTicksLeaveTheBusAlone := by
  intro s h
  refine ⟨fun hd none_left => ?_, fun hd => ?_⟩
  · obtain ⟨due, branched⟩ := h.handling.due hd
    have ready : Handling 7 { s with isrpc := 7 } := due.moved rfl
    have rendered := ready.renders (v := 0#8) (by omega) rfl
    have first : 1 % s.cfg.ticksPerSample = (s.div + 1) % s.cfg.ticksPerSample := by rw [hd]
    rw [first]
    exact .head branched (due.goes_on (by omega) (by simp [handlerLeaves, pullLeaves, none_left]) rendered)
  · have ready : Handling 6 { s with isrpc := 6 } := h.handling.moved rfl
    exact h.handling.goes_on (by omega) (by simp [handlerLeaves, h.handling.stands, hd])
      (ready.renders (v := s.duty) (by omega) rfl)

end Sys2Proof.Machine
end

section
/-! PROOFS of the statements on faults, hangs and the sample interrupt (spec/60_exceptions.md R115 to R117, R126 to R128). -/

namespace Sys2Proof.Machine

/-! ### A recorded fault (R115) -/

/-- Once a fault is recorded every step answers it, unless power is lost and returns. -/
theorem step_of_fault {s : State} {f : Fault} (hf : s.fault = some f) (hp : ¬powerOnNext s) : step s = .fault f := by
  unfold step agentStep
  split
  · rename_i none_recorded
    exact absurd (hf.symm.trans none_recorded) nofun
  · rename_i rest _ hs
    exact absurd ⟨rest, hs⟩ hp
  · rename_i g hg _
    cases hf.symm.trans hg
    rfl

/-- Settles O44: the first step of a run answers the fault, and the one step that leads on is the power-on. -/
theorem faultIsFinal : Obligations.FaultIsFinal := by
  constructor
  · intro s f n hf hp
    simp only [Host.Core.run, core, step_of_fault hf hp]
  · intro s t h hf
    obtain ⟨rest, hs, rfl⟩ | ⟨no_fault, _⟩ := step_cases h
    · exact ⟨⟨rest, hs⟩, rfl⟩
    · exact absurd no_fault hf

/-! ### Hangs (R117) -/

/-- A step that changes nothing is the whole run. -/
theorem run_of_step_same {s : State} (h : step s = .next s) (n : Nat) : Host.Core.run core n s = .next s := by
  induction n with
  | zero => rfl
  | succ n ih =>
    simp only [Host.Core.run, core, h]
    exact ih

/-- The micro-steps the spec lists as `await` are the program's (R84 to R88, R93, R96, R101). -/
theorem program_await {i : Instr} : ∀ k ∈ awaitSteps i, (program i)[k]? = some await := by
  cases i with
  | enable | disable | pull | tickctl _ => exact List.forall_mem_nil _
  | start | rstart | stop | send _ | read _ => exact List.forall_mem_singleton.mpr rfl
  | openClip _ | close | select _ =>
    simp only [awaitSteps, List.forall_mem_cons, List.not_mem_nil, false_imp_iff, implies_true, and_true]
    and_intros <;> rfl

/-- Settles O33: the sequencer's `await` leaves everything as it was, so the step changes nothing. -/
theorem unresponsiveBusHangs : Obligations.UnresponsiveBusHangs := by
  intro s n hf hs busy silent hung
  refine run_of_step_same ?_ n
  rw [step_of_silence hf hs (by simp [completionEnabled, silent])]
  obtain ⟨w, i, k, outside, guarded, hfg, hw, awaits⟩ | ⟨inside, at3⟩ := hung
  · rw [sequencerMove_running outside (by simp [entryEnabled, guarded]) hfg hw]
    exact exec_awaits_busy ⟨outside, hfg⟩ (program_await k awaits) busy
  · rw [sequencerMove_in_handler inside, handlerStep_awaits at3, if_pos busy]

/-! ### Latching a tick (R126) -/

theorem fireTick_eq (s : State) : fireTick s = { s with tickPend := s.tickPend || (s.tickEn && !s.inIsr) } := by
  unfold fireTick
  cases s.tickEn && !s.inIsr <;> simp

/-- No command writes `TICK_PEND`. -/
theorem exec_tickPend {i : Instr} {s t : State} (h : exec i s = .next t) : t.tickPend = s.tickPend := by
  by_cases hp : i = .pull
  · subst hp
    obtain rfl | rfl := exec_pull_cases h
    · rfl
    · obtain ⟨_, _, _, _, _, frame⟩ := pullLeaves_frame s
      rw [frame]
  · obtain ⟨same, _⟩ := (exec_frame hp h).interrupt
    exact same

/-- The host cannot write it either. -/
theorem hostMove_tickPend {op : HostOp} {s t : State} (h : hostMove op s = .next t) : t.tickPend = s.tickPend := by
  cases op with
  | read n => cases h; rfl
  | poll lines => cases h; rfl
  | write n w =>
    by_cases port : n = 0
    · rw [hostMove, if_pos port] at h
      cases hw : decodeWord w with
      | ok i => exact exec_tickPend (writeCommand_legal s hw ▸ h)
      | error e =>
        rw [writeCommand_illegal s (by simp [hw])] at h
        cases h; rfl
    · rw [hostMove, if_neg port] at h
      cases h; rfl

/-- Of the sequencer's moves the entry alone writes it. -/
theorem sequencerMove_tickPend {s t : State} (h : sequencerMove s = .next t) :
    t.tickPend = s.tickPend ∨ (s.inIsr = false ∧ t = enterHandler s) := by
  obtain ⟨_, he⟩ | ⟨outside, _, he⟩ | ⟨_, _, _, he⟩ | ⟨_, _, w, k, i, _, _, he⟩ | ⟨_, _, _, _, _, _, he⟩ :=
    sequencerMove_cases s <;> rw [he] at h
  · exact .inl (congrArg State.tickPend (handlerStep_cases h).frame :)
  · cases h; exact .inr ⟨outside, rfl⟩
  · cases h; exact .inl rfl
  · exact .inl (exec_tickPend h)
  · cases h

/-- Every step but power-on leaves `TICK_PEND` alone, but for the firing clock and the entry (R126, R127). -/
theorem step_tickPend {s t : State} (h : step s = .next t) (hp : ¬powerOnNext s) :
    t.tickPend = s.tickPend ∨
      (∃ rest, s.script = .clock :: rest ∧ t = fireTick { s with script := rest }) ∨
      (s.inIsr = false ∧ ∃ sc, t = enterHandler { s with script := sc }) := by
  obtain ⟨rest, hs, _⟩ | ⟨_, host | clock | bus | engine | block⟩ := step_cases h
  · exact absurd ⟨rest, hs⟩ hp
  · obtain ⟨op, rest, _, _, moved⟩ := host
    exact .inl (hostMove_tickPend moved :)
  · exact .inr (.inl clock)
  · obtain ⟨r, rest, _, rfl⟩ := bus
    exact .inl rfl
  · obtain ⟨rest, _, _, rfl⟩ := engine
    exact .inl rfl
  · obtain ⟨sc, _, ⟨_, done⟩ | moved⟩ := block
    · exact .inl (congrArg State.tickPend (complete_frame done) :)
    · exact (sequencerMove_tickPend moved).imp_right fun ⟨outside, entered⟩ => .inr ⟨outside, sc, entered⟩

/-- Settles O34: the clock's turn is its firing, and a step that writes `TICK_PEND` is the clock's or the entry. -/
theorem ticksAreLatchedByTheClockAlone : Obligations.TicksAreLatchedByTheClockAlone := by
  constructor
  · intro s rest hf hs
    rw [step_of_no_fault hf]
    simp only [scriptMove, hs, fireTick_eq]
  · intro s t h hp
    obtain same | ⟨rest, hs, rfl⟩ | ⟨outside, sc, rfl⟩ := step_tickPend h hp
    · exact ⟨fun clear set => absurd (set.symm.trans (same.trans clear)) nofun,
        fun set clear => absurd (set.symm.trans (same.symm.trans clear)) nofun⟩
    · constructor
      · intro clear latched
        obtain ⟨enabled, outside⟩ : s.tickEn = true ∧ s.inIsr = false := by simpa [clear] using latched
        exact ⟨enabled, outside, rest, hs⟩
      · intro set clear
        simp [set] at clear
    · exact ⟨fun _ => nofun, fun _ _ => ⟨outside, rfl⟩⟩

/-! ### Taking the interrupt (R127, R128) -/

theorem sequencerMove_enters {s : State} (he : entryEnabled s = true) : sequencerMove s = .next (enterHandler s) := by
  obtain ⟨_, outside, _⟩ := (entryEnabled_iff s).mp he
  simp [sequencerMove, outside, he]

/-- The one move from outside the handler into it is the entry. -/
theorem Move.entry {s t : State} (m : Move s t) (outside : s.inIsr = false) (inside : t.inIsr = true) :
    entryEnabled s = true ∧ t = enterHandler s := by
  have stays (same : t.inIsr = s.inIsr) : False := absurd (inside.symm.trans (same.trans outside)) nofun
  cases m with
  | entered enabled moved => exact ⟨enabled, moved⟩
  | environment frame => exact (stays (congrArg State.inIsr frame :)).elim
  | accepted _ _ _ moved => exact (stays (congrArg State.inIsr moved :)).elim
  | completed _ done => exact (stays (congrArg State.inIsr (complete_frame done) :)).elim
  | handled running => exact absurd (running.symm.trans outside) nofun
  | stepped _ _ _ _ _ _ move => exact (stays (congrArg State.inIsr move.frame :)).elim

/-- Settles O35: the sequencer's turn is the entry whatever `FG` is, and no other move enters the handler. -/
theorem handlerEntry : Obligations.HandlerEntry := by
  constructor
  · intro s rest hf pending outside down hs
    rw [step_of_sequencer_turn hf hs]
    exact sequencerMove_enters ((entryEnabled_iff _).mpr ⟨pending, outside, down⟩)
  · intro s t h outside inside
    obtain ⟨rest, rfl⟩ | ⟨sc, m⟩ := step_power_or_move h
    · exact nomatch inside
    · obtain ⟨enabled, rfl⟩ := m.entry outside inside
      obtain ⟨pending, _, down⟩ := (entryEnabled_iff _).mp enabled
      exact ⟨pending, down, rfl⟩

/-- A write of the host waits for an enabled entry, and the block moves instead (R128). -/
theorem step_of_waiting_write {s : State} {n : Fin 8} {w : Word} {rest : List Turn} (hf : s.fault = none)
    (hs : s.script = .host (.write n w) :: rest) (he : entryEnabled s = true) : step s = blockMove s := by
  simp [step_of_no_fault hf, scriptMove, hs, hostReady, he]

/-- Settles O36: in either case the step is the block's own move, which without a completion is the entry. -/
theorem handlerEntryComesFirst : Obligations.HandlerEntryComesFirst := by
  intro s hf pending outside down turn hc
  have enabled := (entryEnabled_iff s).mpr ⟨pending, outside, down⟩
  obtain hs | ⟨w, rest, hs⟩ := turn
  · rw [step_of_silence hf hs hc]
    exact sequencerMove_enters enabled
  · rw [step_of_waiting_write hf hs enabled, blockMove, if_neg (by simp [hc])]
    exact sequencerMove_enters enabled

end Sys2Proof.Machine
end

section
/-! PROOFS: under the invariant of the bus engine a step stops only as the spec says (spec/60_exceptions.md R115,
spec/20_memory.md R53). -/

namespace Sys2Proof.Machine

section Stops

variable {i : Instr} {w : Word} {k : Nat} {s : State} {p : Prim}

/-! ### The moves that are always made -/

/-- A primitive command has a next state at its issue and at its `await` (R84 to R88). -/
theorem exec_carried_exists (hc : carriedPrim i = some p) (h : standsAt w k s) (hk : k < 2) :
    ∃ t, exec i s = .next t := by
  obtain rfl | rfl : k = 0 ∨ k = 1 := by omega
  · exact ⟨_, exec_carried_issues hc h⟩
  · obtain ⟨_, awaits, _⟩ := program_carried hc
    cases hb : s.busy with
    | true => exact ⟨_, exec_awaits_busy h awaits hb⟩
    | false => exact ⟨_, exec_awaits_free h awaits hb⟩

/-- A selector the port has checked has its clip (R67). -/
theorem exists_clip_of_selectorInTable {n : Byte} (hi : selector i = some n) (hs : selectorInTable s.cfg i = true) :
    ∃ c, s.cfg.clips[n.toNat]? = some c := by
  have inside : n.toNat < s.cfg.nClips := by simpa [selectorInTable, hi] using hs
  exact ⟨_, List.getElem?_eq_getElem (l := s.cfg.clips) inside⟩

/-- An accepted command has a next state at each of its micro-steps, a raise among them (R22, R23). -/
theorem exec_exists (h : standsAt w k s) (hk : k < programLength i) (hs : selectorInTable s.cfg i = true) :
    ∃ t, exec i s = .next t := by
  cases i with
  | enable =>
    obtain rfl : k = 0 := Nat.lt_one_iff.mp hk
    exact ⟨_, enableSetsEn.1 s w h⟩
  | disable =>
    obtain rfl : k = 0 := Nat.lt_one_iff.mp hk
    obtain ⟨clears, raises, _⟩ := disableClearsEnOutsideASession
    by_cases idle : s.sess = .s0
    · exact ⟨_, clears s w h idle⟩
    · exact ⟨_, raises s w h idle⟩
  | tickctl e =>
    obtain rfl : k = 0 := Nat.lt_one_iff.mp hk
    exact ⟨_, tickctlWritesTickEn.1 e s w h⟩
  | start | rstart | stop | send _ => exact exec_carried_exists rfl h hk
  | read a =>
    obtain first | rfl : k < 2 ∨ k = 2 := Nat.lt_succ_iff_lt_or_eq.mp hk
    · exact exec_carried_exists rfl h first
    · exact ⟨_, primitiveCommandsAwaitAndReturn.2 s w a h⟩
  | openClip n =>
    obtain ⟨c, hc⟩ := exists_clip_of_selectorInTable rfl hs
    exact ⟨_, openStepByStep n c s w k h hc hk⟩
  | close => exact ⟨_, closeStepByStep s w k h hk⟩
  | select n =>
    obtain ⟨c, hc⟩ := exists_clip_of_selectorInTable rfl hs
    exact ⟨_, selectStepByStep n c s w k h hc hk⟩
  | pull => exact absurd hk (Nat.not_lt_zero k)

/-- Under the invariant the sequencer's move is made, whatever its context (R127, R128). -/
theorem EngineInv.sequencerMove_exists (h : EngineInv s) : ∃ t, sequencerMove s = .next t := by
  obtain ⟨hi, he⟩ | ⟨_, _, he⟩ | ⟨_, _, _, he⟩ | ⟨hi, _, w, k, i, hfg, hw, he⟩ | ⟨_, _, w, k, hfg, hw, _⟩ :=
    sequencerMove_cases s
  · rw [he]; exact handlerStep_exists (h.isr_position hi)
  · exact ⟨_, he⟩
  · exact ⟨_, he⟩
  · obtain ⟨hk, _, hs⟩ := h.running_accepted hfg hw
    rw [he]; exact exec_exists ⟨hi, hfg⟩ hk hs
  · obtain ⟨i, decodes, _⟩ := h.run_accepted w k hfg
    exact absurd decodes (hw i)

/-- A host that can make its move makes it (R33, R61, R139). -/
theorem hostMove_exists {op : HostOp} (free : portFree s = true) : ∃ t, hostMove op s = .next t := by
  cases op with
  | read n => exact ⟨_, rfl⟩
  | poll lines => exact ⟨_, rfl⟩
  | write n w =>
    by_cases port : n = 0
    · rw [hostMove, if_pos port]
      cases hw : decodeWord w with
      | error e => exact ⟨_, writeCommand_illegal s (by simp [hw])⟩
      | ok i =>
        obtain ⟨hfg, hi⟩ := (portFree_iff s).mp free
        exact ⟨_, (writeCommand_legal s hw).trans (exec_at_port i hi hfg)⟩
    · exact ⟨_, if_neg port⟩

/-! ### The one refusal (R53) -/

/-- The reference peer is about to be sent the third byte of a write phase. -/
def ThirdByteInFlight (s : State) : Prop :=
  s.sess = .sw ∧ s.wcnt = 2 ∧ s.cfg.oracle = .reference ∧ ∃ b, s.inflight = some (.send b)

/-- A move is made, or it is refused at the third byte of a write phase. -/
def MadeOrThirdByte (s : State) (r : Result) : Prop :=
  (∃ t, r = .next t) ∨ (r = .refused .unmodelledPeerWrite ∧ ThirdByteInFlight s)

/-- What is in flight under the invariant was admitted, so its completion is made or is that of the third byte (R53, R78). -/
theorem EngineInv.completes (h : EngineInv s) (hb : s.busy = true) : MadeOrThirdByte s (complete s) := by
  obtain ⟨p, hp, admitted⟩ := h.admitted_of_busy hb
  obtain ⟨n, hn⟩ := Option.ne_none_iff_exists'.mp (h.inflight_admitted p hp)
  by_cases third : s.sess = .sw ∧ s.wcnt = 2 ∧ s.cfg.oracle = .reference ∧ ∃ b, p = .send b
  · obtain ⟨hs, hc, ho, b, rfl⟩ := third
    refine .inr ⟨?_, hs, hc, ho, b, hp⟩
    rw [complete_send_reference hp ho hn, peerTakes_third hs hc.ge]
  · have counted (ho : s.cfg.oracle = .reference) : wcntAfter s.sess p s.wcnt ≤ 2 := by
      have := h.wcnt_le
      cases p with
      | start | rstart => exact Nat.zero_le 2
      | stop | read _ => exact this
      | send b =>
        by_cases hs : s.sess = .sw
        · have before : s.wcnt ≠ 2 := fun hc => third ⟨hs, hc, ho, b, rfl⟩
          simp only [wcntAfter, hs, if_true]
          omega
        · simpa only [wcntAfter, hs, if_false] using this
    obtain ⟨t, done, _⟩ := complete_counted hp hn counted
    exact .inl ⟨t, done⟩

/-- With no move of the environment the engine completes, or the sequencer goes on. -/
theorem EngineInv.blocks (h : EngineInv s) : MadeOrThirdByte s (blockMove s) := by
  unfold blockMove
  split
  · exact h.completes ((completionEnabled_iff s).mp ‹_›).1
  · exact .inl h.sequencerMove_exists

/-- With no fault recorded every turn of the script is taken, but for the completion of the third byte. -/
theorem EngineInv.steps (h : EngineInv s) (hf : s.fault = none) : MadeOrThirdByte s (step s) := by
  rw [step_of_no_fault hf, scriptMove]
  have spent (rest : List Turn) : EngineInv { s with script := rest } := h.environment rest _ _ _ _
  cases s.script with
  | nil => exact h.blocks
  | cons turn rest =>
    cases turn with
    | host op =>
      simp only
      split
      · exact .inl (hostMove_exists (portFree_of_hostReady (op := op) ‹_›))
      · exact h.blocks
    | clock | bus _ | powerOn => exact .inl ⟨_, rfl⟩
    | engine =>
      simp only [engineMove]
      split
      · exact (spent rest).completes ((completionEnabled_iff _).mp ‹_›).1
      · exact .inl ⟨_, rfl⟩
    | sequencer => exact .inl (spent rest).sequencerMove_exists

/-- A step is made, or refused at the third byte, or it answers the fault already recorded (R53, R115). -/
theorem EngineInv.step_outcomes (h : EngineInv s) :
    MadeOrThirdByte s (step s) ∨ ∃ f, s.fault = some f ∧ step s = .fault f := by
  cases hf : s.fault with
  | none => exact .inl (h.steps hf)
  | some f =>
    by_cases power : powerOnNext s
    · obtain ⟨rest, hs⟩ := power
      exact .inl (.inl ⟨_, step_of_powerOn hs⟩)
    · exact .inr ⟨f, rfl, step_of_fault hf power⟩

end Stops

/-- Settles O52: of the three outcomes one is a fault, that recorded, and one is a refusal, that of the third byte. -/
theorem engineInvariantLeavesOnlyTheSpecsStops : Obligations.EngineInvariantLeavesOnlyTheSpecsStops := by
  intro s h
  obtain (⟨t, made⟩ | ⟨refused, third⟩) | ⟨g, hf, answered⟩ := h.step_outcomes
  · rw [made]
    exact ⟨nofun, nofun⟩
  · rw [refused]
    refine ⟨nofun, fun r stop => ?_⟩
    cases stop
    exact ⟨rfl, third⟩
  · rw [answered]
    refine ⟨fun f stop => ?_, nofun⟩
    cases stop
    exact hf

end Sys2Proof.Machine
end

section
/-! PROOFS of the statement on the boot sequence (spec/70_reset_and_hazards.md R143). -/

namespace Sys2Proof.Machine

section Commands

variable {i : Instr} {w : Word} {k : Nat} {ops : List HostOp} {s t u : State}

/-- While a command runs the host waits for its port, so with only the host's moves to come, no tick to be taken and no
completion, the command goes on (R61). -/
theorem step_exec_before_host (hf : s.fault = none) (hs : s.script = ops.map .host) (hi : s.inIsr = false)
    (he : entryEnabled s = false) (hc : completionEnabled s = false) (hfg : s.fg = .run w k)
    (hw : decodeWord w = .ok i) : step s = exec i s := by
  rw [← sequencerMove_running hi he hfg hw]
  cases ops with
  | nil => exact step_of_silence hf hs hc
  | cons op ops =>
    have waits : ¬hostReady op s = true := fun ready =>
      nomatch hfg.symm.trans ((portFree_iff s).mp (portFree_of_hostReady ready)).1
    simp [step_of_no_fault hf, scriptMove, hs, waits, blockMove, hc]

/-- From rest, a command of one micro-step that passes the port's checks is accepted and executed before the host's next
move. -/
theorem atRest.leadsTo_of_one_step (h : atRest s) (hs : s.script = .host (.write 0 (encode i)) :: ops.map .host)
    (hc : portCheck i s = none)
    (returns : exec i { s with script := ops.map .host, fg := .run (encode i) 0 } = .next t) (ht : leadsTo t u) :
    leadsTo s u := by
  obtain ⟨hf, hfg, hi, hb, hp⟩ := h
  have no_tick : entryEnabled s = false := by simp [entryEnabled, hp]
  have accepted : step s = .next { s with script := ops.map .host, fg := .run (encode i) 0 } := by
    rw [stepRunsTheWrittenCommand s _ _ i hf hs ((portFree_iff s).mpr ⟨hfg, hi⟩) no_tick (decodeWord_encode i)]
    exact exec_accepted hi hfg hc
  have goes_on : step { s with script := ops.map .host, fg := .run (encode i) 0 } = exec i _ :=
    step_exec_before_host hf rfl hi no_tick (by simp [completionEnabled, hb]) rfl (decodeWord_encode i)
  exact .head accepted (.head (goes_on.trans returns) ht)

end Commands

/-- Settles O47: ENABLE and then TICKCTL ON, each exempt from the check of `EN`, run to their return at rest. -/
theorem bootSequenceLeadsToTheBootState : Obligations.BootSequenceLeadsToTheBootState := by
  intro s h hs
  obtain ⟨enables, _⟩ := enableSetsEn
  obtain ⟨switches, _⟩ := tickctlWritesTickEn
  have rests := h
  obtain ⟨hf, hfg, hi, hb, hp⟩ := h
  have enabled : atRest { s with en := true, script := [.host (.write 0 (encode (.tickctl true)))], fg := .idle } :=
    ⟨hf, rfl, hi, hb, hp⟩
  refine rests.leadsTo_of_one_step (ops := [.write 0 (encode (.tickctl true))]) hs
    (portCheck_passed nofun (.inl rfl) rfl nofun) (enables _ _ ⟨hi, rfl⟩) ?_
  refine enabled.leadsTo_of_one_step (ops := []) rfl
    (portCheck_passed nofun (.inl rfl) rfl nofun) (switches true _ _ ⟨hi, rfl⟩) ?_
  rw [← hfg]
  exact .refl _

end Sys2Proof.Machine
end
